-- ==== Sys2Proof/Word.lean ====
section
/-! DEFINITION. The word types and the finite name types of the core's operands. -/

namespace Sys2Proof

/-- The 8-bit addressable unit and general register width (00_scope R8). -/
abbrev Byte := BitVec 8

/-- The 16-bit width of an address, PC, SP and a register pair (00_scope R8). -/
abbrev Word := BitVec 16

/-- The eight 8-bit registers (10_state R20). -/
inductive Reg8 where
  | a | f | b | c | d | e | h | l
  deriving DecidableEq, Repr

/-- The register pairs, first-named register high (10_state R23); also the `qq` field of PUSH and POP
(30_encoding R95). -/
inductive Pair where
  | bc | de | hl | af
  deriving DecidableEq, Repr

/-- The `pp` field of the 16-bit loads, increments and decrements (30_encoding R95). -/
inductive PairSP where
  | bc | de | hl | sp
  deriving DecidableEq, Repr

/-- The 8-bit operand slot an instruction names: a register, or the location HL points to
(00_scope R14). -/
inductive Slot where
  | b | c | d | e | h | l | atHL | a
  deriving DecidableEq, Repr

/-- The condition of a conditional relative jump (30_encoding R95). -/
inductive Cond where
  | nz | z | nc | c
  deriving DecidableEq, Repr

/-- The accumulator operations of 43_alu. -/
inductive AluOp where
  | add | sub | xor | cp
  deriving DecidableEq, Repr

/-- The second operand of an accumulator operation: a slot or the immediate d8 (43_alu). -/
inductive AluSrc where
  | slot (r : Slot)
  | imm (d8 : Byte)
  deriving DecidableEq, Repr

/-- Which opcode table a byte is looked up in (30_encoding R92, 60_exceptions R242). -/
inductive OpTable where
  | primary | extended
  deriving DecidableEq, Repr

/-- The kind of a router access (20_memory R58). -/
inductive Access where
  | read | write
  deriving DecidableEq, Repr

end Sys2Proof
end

