-- ==== Sys2Proof/Machine/Bits.lean ====
section
/-! DEFINITION. The bit-field and sign-extension helpers of the notation (00_scope R10, R11). -/

namespace Sys2Proof.Machine

/-- `hi : lo`, the 16-bit value with `hi` in bits 15-8 (00_scope R10). -/
def mkWord (hi lo : Byte) : Word := hi ++ lo

/-- `v[15:8]`. -/
def hiByte (v : Word) : Byte := v.extractLsb' 8 8

/-- `v[7:0]`. -/
def loByte (v : Word) : Byte := v.extractLsb' 0 8

/-- `sext_16`: the displacement byte as a 16-bit two's-complement value (00_scope R11). -/
def sext16 (e : Byte) : Word := e.signExtend 16

/-- The address `0xFF00 + v` of the high-RAM window (30_encoding R105). -/
def highAddr (v : Byte) : Word := 0xFF00#16 + v.setWidth 16

end Sys2Proof.Machine
end

