-- ==== Sys2Proof/Config.lean ====
section
/-! DEFINITION. What the spec leaves to a parameter: the draws of the stub reads and the boot image's bytes
(00_scope R9). -/

namespace Sys2Proof

/-- FREE VALUE. The value of the n-th draw of the parameter `stubRead`: what a read of a sound register, of LCD
control or of the palette returns (00_scope R9, 20_memory R60). No body: nothing fixes it (log entry 4; safe). -/
opaque Config.stubRead : Nat → Byte

/-- FREE VALUE. The bytes of the boot image that the spec does not give, those at 1 to 255 (00_scope R9, log entry 1;
safe). -/
opaque Config.bootRest : Nat → Byte

/-- The parameter `BootImage`: byte 0 is 0x31, the others are free (00_scope R9, 10_state R35). -/
def Config.bootImage (a : Nat) : Byte :=
  if a = 0 then 0x31#8 else Config.bootRest a

/-- The size of the boot overlay in bytes (00_scope R8). -/
def Config.bootSize : Nat := 256

/-- The size of the cartridge image in bytes (00_scope R8). -/
def Config.cartSize : Nat := 32768

/-- The sentinel a read of the scanline register returns, 144 (00_scope R8). -/
def Config.scanline : Byte := 0x90#8

end Sys2Proof
end

