-- ==== Sys2Proof/Syntax.lean ====
section
/-! DEFINITION. The instructions: one constructor per row of spec/opcode_table.json, in the table's order. A constructor
is named after its row's assembly form, `atHL`, `atC`, `atA8`, `atA16` standing for the memory operands in
parentheses; `bit7_<r>` is BIT 7,<r>. The immediates have the exact widths of 30_encoding R105. -/

namespace Sys2Proof

/-- The 170 admitted instructions (30_encoding R96, R103, R104). -/
inductive Instr where
  | ld_BC_d16 (d16 : Word)
  | inc_BC
  | inc_B
  | dec_B
  | ld_B_d8 (d8 : Byte)
  | dec_BC
  | inc_C
  | dec_C
  | ld_C_d8 (d8 : Byte)
  | ld_DE_d16 (d16 : Word)
  | inc_DE
  | inc_D
  | dec_D
  | ld_D_d8 (d8 : Byte)
  | rla
  | jr_e8 (e8 : Byte)
  | dec_DE
  | inc_E
  | dec_E
  | ld_E_d8 (d8 : Byte)
  | jr_NZ_e8 (e8 : Byte)
  | ld_HL_d16 (d16 : Word)
  | inc_HL
  | inc_H
  | dec_H
  | ld_H_d8 (d8 : Byte)
  | jr_Z_e8 (e8 : Byte)
  | dec_HL
  | inc_L
  | dec_L
  | ld_L_d8 (d8 : Byte)
  | jr_NC_e8 (e8 : Byte)
  | ld_SP_d16 (d16 : Word)
  | inc_atHL
  | dec_atHL
  | jr_C_e8 (e8 : Byte)
  | inc_A
  | dec_A
  | ld_A_d8 (d8 : Byte)
  | ld_B_B
  | ld_B_C
  | ld_B_D
  | ld_B_E
  | ld_B_H
  | ld_B_L
  | ld_B_atHL
  | ld_B_A
  | ld_C_B
  | ld_C_C
  | ld_C_D
  | ld_C_E
  | ld_C_H
  | ld_C_L
  | ld_C_atHL
  | ld_C_A
  | ld_D_B
  | ld_D_C
  | ld_D_D
  | ld_D_E
  | ld_D_H
  | ld_D_L
  | ld_D_atHL
  | ld_D_A
  | ld_E_B
  | ld_E_C
  | ld_E_D
  | ld_E_E
  | ld_E_H
  | ld_E_L
  | ld_E_atHL
  | ld_E_A
  | ld_H_B
  | ld_H_C
  | ld_H_D
  | ld_H_E
  | ld_H_H
  | ld_H_L
  | ld_H_atHL
  | ld_H_A
  | ld_L_B
  | ld_L_C
  | ld_L_D
  | ld_L_E
  | ld_L_H
  | ld_L_L
  | ld_L_atHL
  | ld_L_A
  | ld_atHL_B
  | ld_atHL_C
  | ld_atHL_D
  | ld_atHL_E
  | ld_atHL_H
  | ld_atHL_L
  | ld_atHL_atHL
  | ld_atHL_A
  | ld_A_B
  | ld_A_C
  | ld_A_D
  | ld_A_E
  | ld_A_H
  | ld_A_L
  | ld_A_atHL
  | ld_A_A
  | add_A_B
  | add_A_C
  | add_A_D
  | add_A_E
  | add_A_H
  | add_A_L
  | add_A_atHL
  | add_A_A
  | sub_B
  | sub_C
  | sub_D
  | sub_E
  | sub_H
  | sub_L
  | sub_atHL
  | sub_A
  | xor_B
  | xor_C
  | xor_D
  | xor_E
  | xor_H
  | xor_L
  | xor_atHL
  | xor_A
  | cp_B
  | cp_C
  | cp_D
  | cp_E
  | cp_H
  | cp_L
  | cp_atHL
  | cp_A
  | pop_BC
  | push_BC
  | add_A_d8 (d8 : Byte)
  | ret
  | call_a16 (a16 : Word)
  | pop_DE
  | push_DE
  | sub_d8 (d8 : Byte)
  | ldh_atA8_A (a8 : Byte)
  | pop_HL
  | ld_atC_A
  | push_HL
  | ld_atA16_A (a16 : Word)
  | ldh_A_atA8 (a8 : Byte)
  | pop_AF
  | ld_A_atC
  | push_AF
  | ld_A_atA16 (a16 : Word)
  | cp_d8 (d8 : Byte)
  | rl_B
  | rl_C
  | rl_D
  | rl_E
  | rl_H
  | rl_L
  | rl_atHL
  | rl_A
  | bit7_B
  | bit7_C
  | bit7_D
  | bit7_E
  | bit7_H
  | bit7_L
  | bit7_atHL
  | bit7_A
  deriving DecidableEq, Repr

end Sys2Proof
end

