-- ==== Sys2Proof/Machine/State.lean ====
section
/-! DEFINITION. The state of the core as plain data, the reasons a step can stop, and the state after reset. -/

namespace Sys2Proof.Machine

/-- The byte array `Mem` (10_state R32): the listed (address, byte) pairs, addresses strictly rising, none equal to
what an unlisted address reads as (`unlistedByte` in Machine/Ops.lean). -/
abbrev Memory := List Host.Cell

/-- The router's regions (20_memory R55). -/
inductive Region where
  | bootArea | sound | lcdc | scy | scx | ly | bgp | bootLatch | unmodeled | plain
  deriving DecidableEq, Repr

/-- A fatal condition with the information it records (60_exceptions R240 to R245). -/
inductive FatalCondition where
  /-- an opcode byte with no entry: its table, the byte, the address it was fetched from (R242) -/
  | unimplementedOpcode (table : OpTable) (byte : Byte) (addr : Word)
  /-- a router access its region forbids: the address and the kind (R243) -/
  | illegalMemoryAccess (addr : Word) (kind : Access)
  /-- a flag accessor found bits 3-0 of F nonzero (R244) -/
  | invariantViolation
  /-- the cartridge image could not be read as 32,768 bytes (R245) -/
  | startupIO
  deriving DecidableEq, Repr

/-- The complete state of the core (10_state R36). -/
structure State where
  /-- the accumulator (10_state R21) -/
  a : Byte
  /-- the flags Z N H C in bits 7-4; bits 3-0 are always 0 (10_state R25, R26) -/
  f : Byte
  /-- general register B -/
  b : Byte
  /-- general register C -/
  c : Byte
  /-- general register D -/
  d : Byte
  /-- general register E -/
  e : Byte
  /-- general register H, the high half of the pointer HL -/
  h : Byte
  /-- general register L, the low half of the pointer HL -/
  l : Byte
  /-- the program counter (10_state R29) -/
  pc : Word
  /-- the stack pointer (10_state R30) -/
  sp : Word
  /-- `boot_rom_enabled`: the overlay is in front of 0x0000-0x00FF (10_state R31) -/
  bootRomEnabled : Bool
  /-- `Mem`, 65,536 bytes (10_state R32) -/
  mem : Memory
  /-- `BootImage`, constant for the session: the listed bytes; an unlisted one is `Config.bootImage`'s
  (10_state R32, log entry 1) -/
  bootImage : List Host.Cell
  /-- the fault record, empty until a fatal condition is raised (10_state R36, 60_exceptions R241) -/
  fault : Option FatalCondition
  /-- THE MODEL'S OWN: how many draws of `Config.stubRead` were made so far (log entry 4) -/
  draws : Nat
  deriving DecidableEq, Repr

/-- Why a run ended: the four fatal conditions of 60_exceptions R240. Each raised by a step carries `final`, the faulted
state: the effects made before the raising access, and the condition in its fault record (R241, R246). A fault ends
the run, so a stop is SAFE: no claim about a later state follows from it. -/
inductive Fault where
  /-- raised by the decode step on a byte with no table entry (R242); safe -/
  | unimplementedOpcode (table : OpTable) (byte : Byte) (addr : Word) (final : State)
  /-- raised by a router read, write or fetch its region forbids (R243); safe -/
  | illegalMemoryAccess (addr : Word) (kind : Access) (final : State)
  /-- raised by a flag accessor when bits 3-0 of F are nonzero, in no reachable state (R244); safe -/
  | invariantViolation (final : State)
  /-- raised by the session's start, before any state exists (R245); safe -/
  | startupIO
  deriving DecidableEq, Repr

/-- Why an instruction has no meaning in the model. -/
inductive Refusal where
  /-- raised by `exec`'s arm of an instruction that has no meaning yet; safe: nothing follows from a refusal. Every
  instruction of this model has its meaning, so no arm raises it. -/
  | notModelled (mnemonic : String)
  deriving DecidableEq, Repr

/-- The state at the start of the session (10_state R35, 70_reset_and_hazards R270), with no cartridge byte listed
(log entry 2) and the boot image of `Config` (log entry 1). -/
def State.reset : State where
  a := 0
  f := 0
  b := 0
  c := 0
  d := 0
  e := 0
  h := 0
  l := 0
  pc := 0
  sp := 0
  bootRomEnabled := true
  mem := []
  bootImage := []
  fault := none
  draws := 0

end Sys2Proof.Machine
end

