-- ==== Sys2Proof/Machine/Ops.lean ====
section
/-! DEFINITION. The named operations over memory and registers: raising a fatal condition, the router, the stack, the
register file (10_state, 20_memory, 44_stack R193, 60_exceptions). -/

namespace Sys2Proof.Machine

/-- The answer of one operation inside a step: a value and the state after it, or the fault that ends the step. -/
inductive Res (α : Type) where
  | ok (v : α) (s : State)
  | fault (r : Fault)
  deriving DecidableEq, Repr

/-- What a step answers. -/
abbrev StepResult := Host.Outcome State Fault Refusal

/-- Do `k` with the value and the state of an operation that did not fault; a fault ends the step there
(00_scope R13: nothing after a raise runs). -/
def Res.andThen {α β : Type} (r : Res α) (k : α → State → Res β) : Res β :=
  match r with
  | .ok v s => k v s
  | .fault e => .fault e

/-- The step's answer when an instruction has done all its operations. -/
def Res.done {α : Type} (r : Res α) : StepResult :=
  match r with
  | .ok _ s => .next s
  | .fault e => .fault e

/-! ### Raising a fatal condition -/

/-- The fault outcome of a condition recorded in the state `s`. -/
def faultOf (r : FatalCondition) (s : State) : Fault :=
  match r with
  | .unimplementedOpcode t b a => .unimplementedOpcode t b a s
  | .illegalMemoryAccess a k => .illegalMemoryAccess a k s
  | .invariantViolation => .invariantViolation s
  | .startupIO => .startupIO

/-- `raise E(info)`: the step stops where it is raised, the effects made so far stay, and the condition is recorded in
the state (60_exceptions R241, R246). -/
def raise {α : Type} (r : FatalCondition) (s : State) : Res α :=
  .fault (faultOf r { s with fault := some r })

/-! ### The byte array -/

/-- What an address with no entry reads as: the zero fill of 70_reset_and_hazards R270 (log entry 2). -/
def unlistedByte (_addr : Nat) : Byte := 0

/-- The byte of `Mem` at an address. -/
def Memory.read : Memory → Nat → Byte
  | [], addr => unlistedByte addr
  | (k, v) :: m, addr => if k = addr then v else Memory.read m addr

/-- List the byte `v` at an address, in its place. -/
def Memory.put : Memory → Nat → Byte → Memory
  | [], addr, v => [(addr, v)]
  | (k, w) :: m, addr, v =>
    if addr < k then (addr, v) :: (k, w) :: m
    else if addr = k then (addr, v) :: m
    else (k, w) :: Memory.put m addr v

/-- Take every entry of an address out. -/
def Memory.drop : Memory → Nat → Memory
  | [], _ => []
  | (k, w) :: m, addr => if k = addr then Memory.drop m addr else (k, w) :: Memory.drop m addr

/-- `Mem[addr] <- v`, keeping the canonical form. -/
def Memory.write (m : Memory) (addr : Nat) (v : Byte) : Memory :=
  if v = unlistedByte addr then m.drop addr else m.put addr v

/-- The addresses of `m` rise strictly from above `lo`, lie in the address space, and no entry holds what an unlisted
address reads as. -/
def Memory.wfFrom (lo : Nat) : Memory → Bool
  | [] => true
  | (k, v) :: m => decide (lo ≤ k) && decide (k < 65536) && decide (v ≠ unlistedByte k) && Memory.wfFrom (k + 1) m

/-- The canonical form of a memory. -/
def Memory.wf (m : Memory) : Bool := Memory.wfFrom 0 m

/-- The bytes of an image from address `base` on, as a memory. -/
def Memory.ofImage (base : Nat) : List Byte → Memory
  | [] => []
  | v :: bs =>
    if v = unlistedByte base then Memory.ofImage (base + 1) bs
    else (base, v) :: Memory.ofImage (base + 1) bs

/-- `BootImage[a]`. -/
def bootByte (s : State) (a : Word) : Byte :=
  match s.bootImage.lookup a.toNat with
  | some v => v
  | none => Config.bootImage a.toNat

/-! ### The router -/

/-- The region of an address, tested in the order of 20_memory R55. -/
def region (a : Word) : Region :=
  if a.toNat ≤ 0x00FF then .bootArea
  else if (0xFF10 ≤ a.toNat ∧ a.toNat ≤ 0xFF1E) ∨ (0xFF20 ≤ a.toNat ∧ a.toNat ≤ 0xFF26) ∨
      (0xFF30 ≤ a.toNat ∧ a.toNat ≤ 0xFF3F) then .sound
  else if a.toNat = 0xFF40 then .lcdc
  else if a.toNat = 0xFF42 then .scy
  else if a.toNat = 0xFF43 then .scx
  else if a.toNat = 0xFF44 then .ly
  else if a.toNat = 0xFF47 then .bgp
  else if a.toNat = 0xFF50 then .bootLatch
  else if 0xFF00 ≤ a.toNat ∧ a.toNat ≤ 0xFF7F then .unmodeled
  else .plain

/-- A draw of the parameter `stubRead`, afresh at each read (00_scope R9). -/
def drawByte (s : State) : Res Byte :=
  .ok (Config.stubRead s.draws) { s with draws := s.draws + 1 }

/-- `MemRead(a, 1)`, the router's read (20_memory R60). -/
def memRead (a : Word) (s : State) : Res Byte :=
  match region a with
  | .bootArea => .ok (if s.bootRomEnabled then bootByte s a else s.mem.read a.toNat) s
  | .plain => .ok (s.mem.read a.toNat) s
  | .scy => .ok (s.mem.read a.toNat) s
  | .scx => .ok (s.mem.read a.toNat) s
  | .bootLatch => .ok (s.mem.read a.toNat) s
  | .ly => .ok Config.scanline s
  | .sound => drawByte s
  | .lcdc => drawByte s
  | .bgp => drawByte s
  | .unmodeled => raise (.illegalMemoryAccess a .read) s

/-- `Mem[a] <- v`. -/
def State.store (s : State) (a : Word) (v : Byte) : State :=
  { s with mem := s.mem.write a.toNat v }

/-- `MemWrite(a, 1, v)`, the router's write (20_memory R61, R62, R63). -/
def memWrite (a : Word) (v : Byte) (s : State) : Res Unit :=
  match region a with
  | .bootArea =>
    if s.bootRomEnabled then raise (.illegalMemoryAccess a .write) s else .ok () (s.store a v)
  | .plain => .ok () (s.store a v)
  | .sound => .ok () (s.store a v)
  | .lcdc => .ok () (s.store a v)
  | .bgp => .ok () (s.store a v)
  | .scy => .ok () (s.store a v)
  | .scx => .ok () (s.store a v)
  | .bootLatch =>
    .ok () ({ s with bootRomEnabled := if v ≠ 0 then false else s.bootRomEnabled }.store a v)
  | .ly => raise (.illegalMemoryAccess a .write) s
  | .unmodeled => raise (.illegalMemoryAccess a .write) s

/-! ### The register file -/

/-- `x[r]` (00_scope R12, 10_state R22). -/
def State.getReg (s : State) : Reg8 → Byte
  | .a => s.a
  | .f => s.f
  | .b => s.b
  | .c => s.c
  | .d => s.d
  | .e => s.e
  | .h => s.h
  | .l => s.l

/-- `x[r] <- v` (00_scope R12, 10_state R22). -/
def State.setReg (s : State) (r : Reg8) (v : Byte) : State :=
  match r with
  | .a => { s with a := v }
  | .f => { s with f := v }
  | .b => { s with b := v }
  | .c => { s with c := v }
  | .d => { s with d := v }
  | .e => { s with e := v }
  | .h => { s with h := v }
  | .l => { s with l := v }

/-- `x[rr]` (10_state R23). -/
def State.getPair (s : State) : Pair → Word
  | .bc => mkWord s.b s.c
  | .de => mkWord s.d s.e
  | .hl => mkWord s.h s.l
  | .af => mkWord s.a s.f

/-- `x[rr] <- v`; the low byte of AF is masked to its high nibble (10_state R24). -/
def State.setPair (s : State) (p : Pair) (v : Word) : State :=
  match p with
  | .bc => { s with b := hiByte v, c := loByte v }
  | .de => { s with d := hiByte v, e := loByte v }
  | .hl => { s with h := hiByte v, l := loByte v }
  | .af => { s with a := hiByte v, f := loByte v &&& 0xF0#8 }

/-- `pc <- target`. -/
def State.setPC (s : State) (target : Word) : State := { s with pc := target }

/-- `SP <- v`. -/
def State.setSP (s : State) (v : Word) : State := { s with sp := v }

/-! ### Fetch and stack -/

/-- `Fetch8()` (30_encoding R91). -/
def fetch8 (s : State) : Res Byte :=
  (memRead s.pc s).andThen fun v s1 => .ok v (s1.setPC (s1.pc + 1))

/-- `Fetch16()`, low byte first (30_encoding R93). -/
def fetch16 (s : State) : Res Word :=
  (fetch8 s).andThen fun lo s1 => (fetch8 s1).andThen fun hi s2 => .ok (mkWord hi lo) s2

/-- `Push16(v)`: the low byte at SP, the high byte at SP+1, then SP moves down by two (44_stack R193). -/
def push16 (v : Word) (s : State) : Res Unit :=
  (memWrite s.sp (loByte v) s).andThen fun _ s1 =>
    (memWrite (s1.sp + 1) (hiByte v) s1).andThen fun _ s2 => .ok () (s2.setSP (s2.sp - 2))

/-- `Pop16()`: SP moves up by two, then the low byte at the new SP and the high byte at SP+1 (44_stack R193). -/
def pop16 (s : State) : Res Word :=
  let s0 := s.setSP (s.sp + 2)
  (memRead s0.sp s0).andThen fun lo s1 =>
    (memRead (s1.sp + 1) s1).andThen fun hi s2 => .ok (mkWord hi lo) s2

end Sys2Proof.Machine
end

