-- ==== Sys2Proof/Machine/Flags.lean ====
section
/-! DEFINITION. The flags of F, their accessors, and the flag-computing micro-ops (10_state R26, R28, 40_microops). -/

namespace Sys2Proof.Machine

/-- The four flags (10_state R26). -/
structure Flags where
  z : Bool
  n : Bool
  h : Bool
  c : Bool
  deriving DecidableEq, Repr

/-- `flag.Z = x[F][7]`, `flag.N = x[F][6]`, `flag.H = x[F][5]`, `flag.C = x[F][4]` (10_state R26). -/
def flagsOfByte (f : Byte) : Flags :=
  { z := f.getLsbD 7, n := f.getLsbD 6, h := f.getLsbD 5, c := f.getLsbD 4 }

/-- One flag in its bit of F. -/
def flagBit (b : Bool) (i : Nat) : Byte := if b then 1#8 <<< i else 0

/-- `(Z<<7) | (N<<6) | (H<<5) | (C<<4)` (40_microops R130). -/
def Flags.toByte (fl : Flags) : Byte :=
  flagBit fl.z 7 ||| flagBit fl.n 6 ||| flagBit fl.h 5 ||| flagBit fl.c 4

/-- Bits 3-0 of F are 0 (10_state R25). -/
def State.flagsValid (s : State) : Bool := s.f &&& 0x0F#8 == 0

/-- The flag predicates: read the flags, checking the invariant of F (10_state R28; log entry 6). -/
def getFlags (s : State) : Res Flags :=
  if s.flagsValid then .ok (flagsOfByte s.f) s else raise .invariantViolation s

/-- The flag setters: write the flags, checking the invariant of F (10_state R28, 40_microops R130; log entry 6). -/
def setFlags (fl : Flags) (s : State) : Res Unit :=
  if s.flagsValid then .ok () { s with f := fl.toByte } else raise .invariantViolation s

/-- A micro-op's result and flags (40_microops R120). -/
structure MicroResult where
  val : Byte
  flags : Flags
  deriving DecidableEq, Repr

/-- `increment` (40_microops R121). -/
def increment (v : Byte) (fl : Flags) : MicroResult :=
  let r := v + 1
  { val := r, flags := { z := r == 0, n := false, h := v &&& 0x0F#8 == 0x0F#8, c := fl.c } }

/-- `decrement` (40_microops R122). -/
def decrement (v : Byte) (fl : Flags) : MicroResult :=
  let r := v - 1
  { val := r, flags := { z := r == 0, n := true, h := v &&& 0x0F#8 == 0, c := fl.c } }

/-- `add`: the exact sum decides the carries (40_microops R123). -/
def add8 (x y : Byte) : MicroResult :=
  let sum := x.toNat + y.toNat
  let r := BitVec.ofNat 8 sum
  { val := r,
    flags := { z := r == 0, n := false, h := decide (x.toNat % 16 + y.toNat % 16 > 15), c := decide (sum > 255) } }

/-- `subtract` (40_microops R124). -/
def subtract8 (x y : Byte) : MicroResult :=
  let r := x - y
  { val := r,
    flags := { z := r == 0, n := true, h := decide (y.toNat % 16 > x.toNat % 16), c := decide (y.toNat > x.toNat) } }

/-- `exclusive-or` (40_microops R125). -/
def xor8 (x y : Byte) : MicroResult :=
  let r := x ^^^ y
  { val := r, flags := { z := r == 0, n := false, h := false, c := false } }

/-- Shift left by one, the old carry into bit 0 (40_microops R126). -/
def rotl (v : Byte) (carry : Bool) : Byte := v <<< 1 ||| flagBit carry 0

/-- `rl` (40_microops R126). -/
def rl8 (v : Byte) (fl : Flags) : MicroResult :=
  let r := rotl v fl.c
  { val := r, flags := { z := r == 0, n := false, h := false, c := v.getLsbD 7 } }

/-- `rla`: as `rl`, with Z always cleared (40_microops R127). -/
def rla8 (v : Byte) (fl : Flags) : MicroResult :=
  { val := rotl v fl.c, flags := { z := false, n := false, h := false, c := v.getLsbD 7 } }

/-- `bit-test`: the value operand is ignored and bit 7 of register H is tested (40_microops R128, 90_conflicts C3). -/
def bittest (_value : Byte) (regH : Byte) (fl : Flags) : Flags :=
  { z := !regH.getLsbD 7, n := false, h := true, c := fl.c }

/-- The micro-op of an accumulator operation; compare is subtract (40_microops R124). -/
def aluMicro (op : AluOp) (x y : Byte) : MicroResult :=
  match op with
  | .add => add8 x y
  | .sub => subtract8 x y
  | .xor => xor8 x y
  | .cp => subtract8 x y

/-- The condition of a conditional jump (45_jumps_calls R201). -/
def condHolds (cc : Cond) (fl : Flags) : Bool :=
  match cc with
  | .nz => !fl.z
  | .z => fl.z
  | .nc => !fl.c
  | .c => fl.c

end Sys2Proof.Machine
end

