-- ==== Sys2Proof/Machine/Operands.lean ====
section
/-! DEFINITION. The operand forms: the uniform slot with get and set, and the conditions (00_scope R14,
30_encoding R105). -/

namespace Sys2Proof.Machine

/-- The place a slot names: a register, or the address `x[HL]` at the time of the access (00_scope R14). -/
inductive Place where
  | reg (r : Reg8)
  | mem (addr : Word)
  deriving DecidableEq, Repr

/-- The place of a slot in a state. -/
def placeOf (x : Slot) (s : State) : Place :=
  match x with
  | .b => .reg .b
  | .c => .reg .c
  | .d => .reg .d
  | .e => .reg .e
  | .h => .reg .h
  | .l => .reg .l
  | .atHL => .mem (s.getPair .hl)
  | .a => .reg .a

/-- `get(slot)` (00_scope R14). -/
def getSlot (x : Slot) (s : State) : Res Byte :=
  match placeOf x s with
  | .reg r => .ok (s.getReg r) s
  | .mem addr => memRead addr s

/-- `set(slot, v)` (00_scope R14). -/
def setSlot (x : Slot) (v : Byte) (s : State) : Res Unit :=
  match placeOf x s with
  | .reg r => .ok () (s.setReg r v)
  | .mem addr => memWrite addr v s

/-- The second operand of an accumulator operation; an immediate is the byte itself (30_encoding R105). -/
def getSrc (x : AluSrc) (s : State) : Res Byte :=
  match x with
  | .slot r => getSlot r s
  | .imm v => .ok v s

end Sys2Proof.Machine
end

