-- ==== Sys2Proof/Machine/Alu.lean ====
section
/-! DEFINITION. Add, subtract, compare and exclusive-or (43_alu). -/

namespace Sys2Proof.Machine

/-- Where an accumulator operation stores its result: compare discards it (43_alu R176). -/
def storeResult (op : AluOp) (v : Byte) (s : State) : State :=
  match op with
  | .add => s.setReg .a v
  | .sub => s.setReg .a v
  | .xor => s.setReg .a v
  | .cp => s

/-- An accumulator operation: get the second operand, compute with A, store the result, write the flags
(43_alu R170 to R180). -/
def accumulate (op : AluOp) (src : AluSrc) (s : State) : StepResult :=
  ((getSrc src s).andThen fun v s1 =>
    let m := aluMicro op (s1.getReg .a) v
    setFlags m.flags (storeResult op m.val s1)).done

/-- `ADD A,B` (R170). -/
def execAdd_A_B (s : State) : StepResult := accumulate .add (.slot .b) s

/-- `ADD A,C` (R170). -/
def execAdd_A_C (s : State) : StepResult := accumulate .add (.slot .c) s

/-- `ADD A,D` (R170). -/
def execAdd_A_D (s : State) : StepResult := accumulate .add (.slot .d) s

/-- `ADD A,E` (R170). -/
def execAdd_A_E (s : State) : StepResult := accumulate .add (.slot .e) s

/-- `ADD A,H` (R170). -/
def execAdd_A_H (s : State) : StepResult := accumulate .add (.slot .h) s

/-- `ADD A,L` (R170). -/
def execAdd_A_L (s : State) : StepResult := accumulate .add (.slot .l) s

/-- `ADD A,A` (R170). -/
def execAdd_A_A (s : State) : StepResult := accumulate .add (.slot .a) s

/-- `ADD A,(HL)` (R171). -/
def execAdd_A_atHL (s : State) : StepResult := accumulate .add (.slot .atHL) s

/-- `ADD A,d8` (R172). -/
def execAdd_A_d8 (v : Byte) (s : State) : StepResult := accumulate .add (.imm v) s

/-- `SUB B` (R173). -/
def execSub_B (s : State) : StepResult := accumulate .sub (.slot .b) s

/-- `SUB C` (R173). -/
def execSub_C (s : State) : StepResult := accumulate .sub (.slot .c) s

/-- `SUB D` (R173). -/
def execSub_D (s : State) : StepResult := accumulate .sub (.slot .d) s

/-- `SUB E` (R173). -/
def execSub_E (s : State) : StepResult := accumulate .sub (.slot .e) s

/-- `SUB H` (R173). -/
def execSub_H (s : State) : StepResult := accumulate .sub (.slot .h) s

/-- `SUB L` (R173). -/
def execSub_L (s : State) : StepResult := accumulate .sub (.slot .l) s

/-- `SUB A` (R173). -/
def execSub_A (s : State) : StepResult := accumulate .sub (.slot .a) s

/-- `SUB (HL)` (R174). -/
def execSub_atHL (s : State) : StepResult := accumulate .sub (.slot .atHL) s

/-- `SUB d8` (R175). -/
def execSub_d8 (v : Byte) (s : State) : StepResult := accumulate .sub (.imm v) s

/-- `CP B` (R176). -/
def execCp_B (s : State) : StepResult := accumulate .cp (.slot .b) s

/-- `CP C` (R176). -/
def execCp_C (s : State) : StepResult := accumulate .cp (.slot .c) s

/-- `CP D` (R176). -/
def execCp_D (s : State) : StepResult := accumulate .cp (.slot .d) s

/-- `CP E` (R176). -/
def execCp_E (s : State) : StepResult := accumulate .cp (.slot .e) s

/-- `CP H` (R176). -/
def execCp_H (s : State) : StepResult := accumulate .cp (.slot .h) s

/-- `CP L` (R176). -/
def execCp_L (s : State) : StepResult := accumulate .cp (.slot .l) s

/-- `CP A` (R176). -/
def execCp_A (s : State) : StepResult := accumulate .cp (.slot .a) s

/-- `CP (HL)` (R177). -/
def execCp_atHL (s : State) : StepResult := accumulate .cp (.slot .atHL) s

/-- `CP d8` (R178). -/
def execCp_d8 (v : Byte) (s : State) : StepResult := accumulate .cp (.imm v) s

/-- `XOR B` (R179). -/
def execXor_B (s : State) : StepResult := accumulate .xor (.slot .b) s

/-- `XOR C` (R179). -/
def execXor_C (s : State) : StepResult := accumulate .xor (.slot .c) s

/-- `XOR D` (R179). -/
def execXor_D (s : State) : StepResult := accumulate .xor (.slot .d) s

/-- `XOR E` (R179). -/
def execXor_E (s : State) : StepResult := accumulate .xor (.slot .e) s

/-- `XOR H` (R179). -/
def execXor_H (s : State) : StepResult := accumulate .xor (.slot .h) s

/-- `XOR L` (R179). -/
def execXor_L (s : State) : StepResult := accumulate .xor (.slot .l) s

/-- `XOR A` (R179). -/
def execXor_A (s : State) : StepResult := accumulate .xor (.slot .a) s

/-- `XOR (HL)` (R180). -/
def execXor_atHL (s : State) : StepResult := accumulate .xor (.slot .atHL) s

end Sys2Proof.Machine
end

