-- ==== Sys2Proof/Machine/IncDec.lean ====
section
/-! DEFINITION. Increment and decrement (42_incdec). -/

namespace Sys2Proof.Machine

/-- Read a slot, apply a micro-op that sees the flags, write the slot, then the flags: the shape of the
read-modify-write instructions (42_incdec R160 to R163, 47_extended R221, R222). -/
def modifySlot (micro : Byte → Flags → MicroResult) (x : Slot) (s : State) : StepResult :=
  ((getSlot x s).andThen fun v s1 =>
    (getFlags s1).andThen fun fl s2 =>
      (setSlot x (micro v fl).val s2).andThen fun _ s3 => setFlags (micro v fl).flags s3).done

/-- `INC r` and `INC (HL)` (42_incdec R160, R162). -/
def incSlot (x : Slot) (s : State) : StepResult := modifySlot increment x s

/-- `DEC r` and `DEC (HL)` (42_incdec R161, R163). -/
def decSlot (x : Slot) (s : State) : StepResult := modifySlot decrement x s

/-- `INC rr` (42_incdec R164). -/
def incPair (p : Pair) (s : State) : StepResult := .next (s.setPair p (s.getPair p + 1))

/-- `DEC rr` (42_incdec R165). -/
def decPair (p : Pair) (s : State) : StepResult := .next (s.setPair p (s.getPair p - 1))

/-- `INC B` (R160). -/
def execInc_B (s : State) : StepResult := incSlot .b s

/-- `INC C` (R160). -/
def execInc_C (s : State) : StepResult := incSlot .c s

/-- `INC D` (R160). -/
def execInc_D (s : State) : StepResult := incSlot .d s

/-- `INC E` (R160). -/
def execInc_E (s : State) : StepResult := incSlot .e s

/-- `INC H` (R160). -/
def execInc_H (s : State) : StepResult := incSlot .h s

/-- `INC L` (R160). -/
def execInc_L (s : State) : StepResult := incSlot .l s

/-- `INC A` (R160). -/
def execInc_A (s : State) : StepResult := incSlot .a s

/-- `DEC B` (R161). -/
def execDec_B (s : State) : StepResult := decSlot .b s

/-- `DEC C` (R161). -/
def execDec_C (s : State) : StepResult := decSlot .c s

/-- `DEC D` (R161). -/
def execDec_D (s : State) : StepResult := decSlot .d s

/-- `DEC E` (R161). -/
def execDec_E (s : State) : StepResult := decSlot .e s

/-- `DEC H` (R161). -/
def execDec_H (s : State) : StepResult := decSlot .h s

/-- `DEC L` (R161). -/
def execDec_L (s : State) : StepResult := decSlot .l s

/-- `DEC A` (R161). -/
def execDec_A (s : State) : StepResult := decSlot .a s

/-- `INC (HL)` (R162). -/
def execInc_atHL (s : State) : StepResult := incSlot .atHL s

/-- `DEC (HL)` (R163). -/
def execDec_atHL (s : State) : StepResult := decSlot .atHL s

/-- `INC BC` (R164). -/
def execInc_BC (s : State) : StepResult := incPair .bc s

/-- `INC DE` (R164). -/
def execInc_DE (s : State) : StepResult := incPair .de s

/-- `INC HL` (R164). -/
def execInc_HL (s : State) : StepResult := incPair .hl s

/-- `DEC BC` (R165). -/
def execDec_BC (s : State) : StepResult := decPair .bc s

/-- `DEC DE` (R165). -/
def execDec_DE (s : State) : StepResult := decPair .de s

/-- `DEC HL` (R165). -/
def execDec_HL (s : State) : StepResult := decPair .hl s

end Sys2Proof.Machine
end

