-- ==== Sys2Proof/Machine/Extended.lean ====
section
/-! DEFINITION. Rotate left through carry and the bit-7 test (47_extended). -/

namespace Sys2Proof.Machine

/-- `RLA` (47_extended R220). -/
def rotateA (s : State) : StepResult :=
  ((getFlags s).andThen fun fl s1 =>
    let m := rla8 (s1.getReg .a) fl
    setFlags m.flags (s1.setReg .a m.val)).done

/-- `RL r` and `RL (HL)` (47_extended R221, R222). -/
def rotateSlot (x : Slot) (s : State) : StepResult := modifySlot rl8 x s

/-- `BIT 7,r` and `BIT 7,(HL)`: the operand is read, its value ignored, and register H is tested
(47_extended R223, R224). -/
def testBit7 (x : Slot) (s : State) : StepResult :=
  ((getSlot x s).andThen fun v s1 =>
    (getFlags s1).andThen fun fl s2 => setFlags (bittest v (s2.getReg .h) fl) s2).done

/-- `RLA` (R220). -/
def execRla (s : State) : StepResult := rotateA s

/-- `RL B` (R221). -/
def execRl_B (s : State) : StepResult := rotateSlot .b s

/-- `RL C` (R221). -/
def execRl_C (s : State) : StepResult := rotateSlot .c s

/-- `RL D` (R221). -/
def execRl_D (s : State) : StepResult := rotateSlot .d s

/-- `RL E` (R221). -/
def execRl_E (s : State) : StepResult := rotateSlot .e s

/-- `RL H` (R221). -/
def execRl_H (s : State) : StepResult := rotateSlot .h s

/-- `RL L` (R221). -/
def execRl_L (s : State) : StepResult := rotateSlot .l s

/-- `RL A` (R221). -/
def execRl_A (s : State) : StepResult := rotateSlot .a s

/-- `RL (HL)` (R222). -/
def execRl_atHL (s : State) : StepResult := rotateSlot .atHL s

/-- `BIT 7,B` (R223). -/
def execBit7_B (s : State) : StepResult := testBit7 .b s

/-- `BIT 7,C` (R223). -/
def execBit7_C (s : State) : StepResult := testBit7 .c s

/-- `BIT 7,D` (R223). -/
def execBit7_D (s : State) : StepResult := testBit7 .d s

/-- `BIT 7,E` (R223). -/
def execBit7_E (s : State) : StepResult := testBit7 .e s

/-- `BIT 7,H` (R223). -/
def execBit7_H (s : State) : StepResult := testBit7 .h s

/-- `BIT 7,L` (R223). -/
def execBit7_L (s : State) : StepResult := testBit7 .l s

/-- `BIT 7,A` (R223). -/
def execBit7_A (s : State) : StepResult := testBit7 .a s

/-- `BIT 7,(HL)` (R224). -/
def execBit7_atHL (s : State) : StepResult := testBit7 .atHL s

end Sys2Proof.Machine
end

