-- ==== Sys2Proof/Machine/HighRam.lean ====
section
/-! DEFINITION. The high-RAM window and the absolute accumulator loads and stores (46_highram_absolute). -/

namespace Sys2Proof.Machine

/-- Store A at an address (46_highram_absolute R210, R212, R214). -/
def storeA (addr : Word) (s : State) : StepResult := (memWrite addr (s.getReg .a) s).done

/-- Load A from an address (46_highram_absolute R211, R213, R215). -/
def loadA (addr : Word) (s : State) : StepResult :=
  ((memRead addr s).andThen fun v s1 => .ok () (s1.setReg .a v)).done

/-- `LDH (a8),A` (R210). -/
def execLdh_atA8_A (v : Byte) (s : State) : StepResult := storeA (highAddr v) s

/-- `LDH A,(a8)` (R211). -/
def execLdh_A_atA8 (v : Byte) (s : State) : StepResult := loadA (highAddr v) s

/-- `LD (C),A` (R212). -/
def execLd_atC_A (s : State) : StepResult := storeA (highAddr (s.getReg .c)) s

/-- `LD A,(C)` (R213). -/
def execLd_A_atC (s : State) : StepResult := loadA (highAddr (s.getReg .c)) s

/-- `LD (a16),A` (R214). -/
def execLd_atA16_A (v : Word) (s : State) : StepResult := storeA v s

/-- `LD A,(a16)` (R215). -/
def execLd_A_atA16 (v : Word) (s : State) : StepResult := loadA v s

end Sys2Proof.Machine
end

