-- ==== Sys2Proof/Machine/Jumps.lean ====
section
/-! DEFINITION. Relative jumps, call and return (45_jumps_calls). PC is the address after the instruction here. -/

namespace Sys2Proof.Machine

/-- The target of a relative jump: the address after the instruction plus the displacement (45_jumps_calls R200). -/
def jumpTarget (e : Byte) (s : State) : Word := s.pc + sext16 e

/-- `JR e8` (45_jumps_calls R200). -/
def jumpRel (e : Byte) (s : State) : StepResult := .next (s.setPC (jumpTarget e s))

/-- `JR cc,e8` (45_jumps_calls R201). -/
def jumpCond (cc : Cond) (e : Byte) (s : State) : StepResult :=
  ((getFlags s).andThen fun fl s1 =>
    .ok () (if condHolds cc fl then s1.setPC (jumpTarget e s1) else s1)).done

/-- `CALL a16` (45_jumps_calls R202). -/
def callAbs (t : Word) (s : State) : StepResult :=
  ((push16 s.pc s).andThen fun _ s1 => .ok () (s1.setPC t)).done

/-- `RET` (45_jumps_calls R203). -/
def returnPop (s : State) : StepResult :=
  ((pop16 s).andThen fun t s1 => .ok () (s1.setPC t)).done

/-- `JR e8` (R200). -/
def execJr_e8 (v : Byte) (s : State) : StepResult := jumpRel v s

/-- `JR NZ,e8` (R201). -/
def execJr_NZ_e8 (v : Byte) (s : State) : StepResult := jumpCond .nz v s

/-- `JR Z,e8` (R201). -/
def execJr_Z_e8 (v : Byte) (s : State) : StepResult := jumpCond .z v s

/-- `JR NC,e8` (R201). -/
def execJr_NC_e8 (v : Byte) (s : State) : StepResult := jumpCond .nc v s

/-- `JR C,e8` (R201). -/
def execJr_C_e8 (v : Byte) (s : State) : StepResult := jumpCond .c v s

/-- `CALL a16` (R202). -/
def execCall_a16 (v : Word) (s : State) : StepResult := callAbs v s

/-- `RET` (R203). -/
def execRet (s : State) : StepResult := returnPop s

end Sys2Proof.Machine
end

