-- ==== Sys2Proof/Machine/Loads.lean ====
section
/-! DEFINITION. The immediate loads and the register and (HL) moves (41_loads). -/

namespace Sys2Proof.Machine

/-- `LD rr,d16` (41_loads R140); with `.sp`, `LD SP,d16` (R141). -/
def loadPair (p : PairSP) (v : Word) (s : State) : StepResult :=
  match p with
  | .bc => .next (s.setPair .bc v)
  | .de => .next (s.setPair .de v)
  | .hl => .next (s.setPair .hl v)
  | .sp => .next (s.setSP v)

/-- `LD r,d8` (41_loads R142). -/
def loadImm (dst : Slot) (v : Byte) (s : State) : StepResult := (setSlot dst v s).done

/-- The move block 0x40-0x7F: get the source slot, then set the destination slot (41_loads R143 to R146). -/
def move (dst src : Slot) (s : State) : StepResult :=
  ((getSlot src s).andThen fun v s1 => setSlot dst v s1).done

/-- `LD BC,d16` (R140). -/
def execLd_BC_d16 (v : Word) (s : State) : StepResult := loadPair .bc v s

/-- `LD DE,d16` (R140). -/
def execLd_DE_d16 (v : Word) (s : State) : StepResult := loadPair .de v s

/-- `LD HL,d16` (R140). -/
def execLd_HL_d16 (v : Word) (s : State) : StepResult := loadPair .hl v s

/-- `LD SP,d16` (R141). -/
def execLd_SP_d16 (v : Word) (s : State) : StepResult := loadPair .sp v s

/-- `LD B,d8` (R142). -/
def execLd_B_d8 (v : Byte) (s : State) : StepResult := loadImm .b v s

/-- `LD C,d8` (R142). -/
def execLd_C_d8 (v : Byte) (s : State) : StepResult := loadImm .c v s

/-- `LD D,d8` (R142). -/
def execLd_D_d8 (v : Byte) (s : State) : StepResult := loadImm .d v s

/-- `LD E,d8` (R142). -/
def execLd_E_d8 (v : Byte) (s : State) : StepResult := loadImm .e v s

/-- `LD H,d8` (R142). -/
def execLd_H_d8 (v : Byte) (s : State) : StepResult := loadImm .h v s

/-- `LD L,d8` (R142). -/
def execLd_L_d8 (v : Byte) (s : State) : StepResult := loadImm .l v s

/-- `LD A,d8` (R142). -/
def execLd_A_d8 (v : Byte) (s : State) : StepResult := loadImm .a v s

/-- `LD B,B` (R143). -/
def execLd_B_B (s : State) : StepResult := move .b .b s

/-- `LD B,C` (R143). -/
def execLd_B_C (s : State) : StepResult := move .b .c s

/-- `LD B,D` (R143). -/
def execLd_B_D (s : State) : StepResult := move .b .d s

/-- `LD B,E` (R143). -/
def execLd_B_E (s : State) : StepResult := move .b .e s

/-- `LD B,H` (R143). -/
def execLd_B_H (s : State) : StepResult := move .b .h s

/-- `LD B,L` (R143). -/
def execLd_B_L (s : State) : StepResult := move .b .l s

/-- `LD B,A` (R143). -/
def execLd_B_A (s : State) : StepResult := move .b .a s

/-- `LD C,B` (R143). -/
def execLd_C_B (s : State) : StepResult := move .c .b s

/-- `LD C,C` (R143). -/
def execLd_C_C (s : State) : StepResult := move .c .c s

/-- `LD C,D` (R143). -/
def execLd_C_D (s : State) : StepResult := move .c .d s

/-- `LD C,E` (R143). -/
def execLd_C_E (s : State) : StepResult := move .c .e s

/-- `LD C,H` (R143). -/
def execLd_C_H (s : State) : StepResult := move .c .h s

/-- `LD C,L` (R143). -/
def execLd_C_L (s : State) : StepResult := move .c .l s

/-- `LD C,A` (R143). -/
def execLd_C_A (s : State) : StepResult := move .c .a s

/-- `LD D,B` (R143). -/
def execLd_D_B (s : State) : StepResult := move .d .b s

/-- `LD D,C` (R143). -/
def execLd_D_C (s : State) : StepResult := move .d .c s

/-- `LD D,D` (R143). -/
def execLd_D_D (s : State) : StepResult := move .d .d s

/-- `LD D,E` (R143). -/
def execLd_D_E (s : State) : StepResult := move .d .e s

/-- `LD D,H` (R143). -/
def execLd_D_H (s : State) : StepResult := move .d .h s

/-- `LD D,L` (R143). -/
def execLd_D_L (s : State) : StepResult := move .d .l s

/-- `LD D,A` (R143). -/
def execLd_D_A (s : State) : StepResult := move .d .a s

/-- `LD E,B` (R143). -/
def execLd_E_B (s : State) : StepResult := move .e .b s

/-- `LD E,C` (R143). -/
def execLd_E_C (s : State) : StepResult := move .e .c s

/-- `LD E,D` (R143). -/
def execLd_E_D (s : State) : StepResult := move .e .d s

/-- `LD E,E` (R143). -/
def execLd_E_E (s : State) : StepResult := move .e .e s

/-- `LD E,H` (R143). -/
def execLd_E_H (s : State) : StepResult := move .e .h s

/-- `LD E,L` (R143). -/
def execLd_E_L (s : State) : StepResult := move .e .l s

/-- `LD E,A` (R143). -/
def execLd_E_A (s : State) : StepResult := move .e .a s

/-- `LD H,B` (R143). -/
def execLd_H_B (s : State) : StepResult := move .h .b s

/-- `LD H,C` (R143). -/
def execLd_H_C (s : State) : StepResult := move .h .c s

/-- `LD H,D` (R143). -/
def execLd_H_D (s : State) : StepResult := move .h .d s

/-- `LD H,E` (R143). -/
def execLd_H_E (s : State) : StepResult := move .h .e s

/-- `LD H,H` (R143). -/
def execLd_H_H (s : State) : StepResult := move .h .h s

/-- `LD H,L` (R143). -/
def execLd_H_L (s : State) : StepResult := move .h .l s

/-- `LD H,A` (R143). -/
def execLd_H_A (s : State) : StepResult := move .h .a s

/-- `LD L,B` (R143). -/
def execLd_L_B (s : State) : StepResult := move .l .b s

/-- `LD L,C` (R143). -/
def execLd_L_C (s : State) : StepResult := move .l .c s

/-- `LD L,D` (R143). -/
def execLd_L_D (s : State) : StepResult := move .l .d s

/-- `LD L,E` (R143). -/
def execLd_L_E (s : State) : StepResult := move .l .e s

/-- `LD L,H` (R143). -/
def execLd_L_H (s : State) : StepResult := move .l .h s

/-- `LD L,L` (R143). -/
def execLd_L_L (s : State) : StepResult := move .l .l s

/-- `LD L,A` (R143). -/
def execLd_L_A (s : State) : StepResult := move .l .a s

/-- `LD A,B` (R143). -/
def execLd_A_B (s : State) : StepResult := move .a .b s

/-- `LD A,C` (R143). -/
def execLd_A_C (s : State) : StepResult := move .a .c s

/-- `LD A,D` (R143). -/
def execLd_A_D (s : State) : StepResult := move .a .d s

/-- `LD A,E` (R143). -/
def execLd_A_E (s : State) : StepResult := move .a .e s

/-- `LD A,H` (R143). -/
def execLd_A_H (s : State) : StepResult := move .a .h s

/-- `LD A,L` (R143). -/
def execLd_A_L (s : State) : StepResult := move .a .l s

/-- `LD A,A` (R143). -/
def execLd_A_A (s : State) : StepResult := move .a .a s

/-- `LD B,(HL)` (R144). -/
def execLd_B_atHL (s : State) : StepResult := move .b .atHL s

/-- `LD C,(HL)` (R144). -/
def execLd_C_atHL (s : State) : StepResult := move .c .atHL s

/-- `LD D,(HL)` (R144). -/
def execLd_D_atHL (s : State) : StepResult := move .d .atHL s

/-- `LD E,(HL)` (R144). -/
def execLd_E_atHL (s : State) : StepResult := move .e .atHL s

/-- `LD H,(HL)` (R144). -/
def execLd_H_atHL (s : State) : StepResult := move .h .atHL s

/-- `LD L,(HL)` (R144). -/
def execLd_L_atHL (s : State) : StepResult := move .l .atHL s

/-- `LD A,(HL)` (R144). -/
def execLd_A_atHL (s : State) : StepResult := move .a .atHL s

/-- `LD (HL),B` (R145). -/
def execLd_atHL_B (s : State) : StepResult := move .atHL .b s

/-- `LD (HL),C` (R145). -/
def execLd_atHL_C (s : State) : StepResult := move .atHL .c s

/-- `LD (HL),D` (R145). -/
def execLd_atHL_D (s : State) : StepResult := move .atHL .d s

/-- `LD (HL),E` (R145). -/
def execLd_atHL_E (s : State) : StepResult := move .atHL .e s

/-- `LD (HL),H` (R145). -/
def execLd_atHL_H (s : State) : StepResult := move .atHL .h s

/-- `LD (HL),L` (R145). -/
def execLd_atHL_L (s : State) : StepResult := move .atHL .l s

/-- `LD (HL),A` (R145). -/
def execLd_atHL_A (s : State) : StepResult := move .atHL .a s

/-- `LD (HL),(HL)` (R146). -/
def execLd_atHL_atHL (s : State) : StepResult := move .atHL .atHL s

end Sys2Proof.Machine
end

