-- ==== Sys2Proof/Machine/Stack.lean ====
section
/-! DEFINITION. Stack push and pop (44_stack). -/

namespace Sys2Proof.Machine

/-- `PUSH qq` (44_stack R190). -/
def pushPair (q : Pair) (s : State) : StepResult := (push16 (s.getPair q) s).done

/-- `POP qq`; for AF the pair rule masks the low nibble (44_stack R191, R192). -/
def popPair (q : Pair) (s : State) : StepResult :=
  ((pop16 s).andThen fun v s1 => .ok () (s1.setPair q v)).done

/-- `PUSH BC` (R190). -/
def execPush_BC (s : State) : StepResult := pushPair .bc s

/-- `PUSH DE` (R190). -/
def execPush_DE (s : State) : StepResult := pushPair .de s

/-- `PUSH HL` (R190). -/
def execPush_HL (s : State) : StepResult := pushPair .hl s

/-- `PUSH AF` (R190). -/
def execPush_AF (s : State) : StepResult := pushPair .af s

/-- `POP BC` (R191). -/
def execPop_BC (s : State) : StepResult := popPair .bc s

/-- `POP DE` (R191). -/
def execPop_DE (s : State) : StepResult := popPair .de s

/-- `POP HL` (R191). -/
def execPop_HL (s : State) : StepResult := popPair .hl s

/-- `POP AF` (R192). -/
def execPop_AF (s : State) : StepResult := popPair .af s

end Sys2Proof.Machine
end

