-- ==== Sys2Proof/WellFormed.lean ====
section
/-! DEFINITION. The forms of the instruction families with their operands, which of them 30_encoding R95 admits, and the
opcode bytes it admits. An `Instr` term has a constructor per admitted row and immediates of exact width, so its
type leaves nothing to check; the checks stand on forms and on bytes. -/

namespace Sys2Proof

/-- An instruction family with its operands, one constructor per pattern of 30_encoding R95 (`alu` holds the four
register patterns and the immediate ones of 43_alu). -/
inductive Form where
  | ldPair (p : PairSP) (v : Word)
  | ldImm (dst : Slot) (v : Byte)
  | ld (dst src : Slot)
  | inc (dst : Slot)
  | dec (dst : Slot)
  | incPair (p : PairSP)
  | decPair (p : PairSP)
  | alu (op : AluOp) (src : AluSrc)
  | push (q : Pair)
  | pop (q : Pair)
  | jr (e : Byte)
  | jrCond (cc : Cond) (e : Byte)
  | call (t : Word)
  | ret
  | storeHigh (o : Byte)
  | loadHigh (o : Byte)
  | storeHighC
  | loadHighC
  | storeAbs (t : Word)
  | loadAbs (t : Word)
  | rla
  | rl (dst : Slot)
  | bit7 (dst : Slot)
  deriving DecidableEq, Repr

/-- The admitted field values of 30_encoding R95: `LD (HL),d8`, `INC SP`, `DEC SP` and `XOR d8` are not admitted. -/
def Form.wellFormed : Form → Bool
  | .ldPair _ _ => true
  | .ldImm dst _ => dst != .atHL
  | .ld _ _ => true
  | .inc _ => true
  | .dec _ => true
  | .incPair p => p != .sp
  | .decPair p => p != .sp
  | .alu op src =>
    match op, src with
    | .xor, .imm _ => false
    | .xor, .slot _ => true
    | .add, _ => true
    | .sub, _ => true
    | .cp, _ => true
  | .push _ => true
  | .pop _ => true
  | .jr _ => true
  | .jrCond _ _ => true
  | .call _ => true
  | .ret => true
  | .storeHigh _ => true
  | .loadHigh _ => true
  | .storeHighC => true
  | .loadHighC => true
  | .storeAbs _ => true
  | .loadAbs _ => true
  | .rla => true
  | .rl _ => true
  | .bit7 _ => true

/-- A byte written as a number is in a list of numbers. -/
def byteIn (b : Byte) (ns : List Nat) : Bool := ns.contains b.toNat

/-- The opcode bytes the patterns of 30_encoding R95 admit in the primary table, the prefix 0xCB apart: the field
b[7:6] selects the quarter of the map, and b[2:0] or the whole byte the family in it. -/
def primaryAdmitted (b : Byte) : Bool :=
  let quarter := (b >>> 6).toNat
  let low := (b &&& 0x07#8).toNat
  let mid := ((b >>> 3) &&& 0x07#8).toNat
  if quarter = 0 then
    -- INC, DEC, LD d8; LD pp,d16; INC pp, DEC pp; JR; RLA
    low == 4 || low == 5 || (low == 6 && mid != 6) ||
    (low == 1 && mid % 2 == 0) || (low == 3 && mid != 6 && mid != 7) ||
    (low == 0 && mid ≥ 3) || byteIn b [0x17]
  else if quarter = 1 then true
  else if quarter = 2 then mid == 0 || mid == 2 || mid == 5 || mid == 7
  else
    (low == 1 && mid % 2 == 0) || (low == 5 && mid % 2 == 0) ||
    byteIn b [0xC6, 0xD6, 0xFE, 0xCD, 0xC9, 0xE0, 0xF0, 0xE2, 0xF2, 0xEA, 0xFA]

/-- The second bytes the patterns of 30_encoding R95 admit after the prefix: RL and BIT 7. -/
def extendedAdmitted (b : Byte) : Bool :=
  (b >>> 3).toNat == 2 || (b >>> 3).toNat == 15

end Sys2Proof
end

