-- ==== Sys2Proof/Decode.lean ====
section
/-! DEFINITION. The decoder, from the two flat opcode maps (30_encoding R103, R104), and after it the encoder, from the
bit patterns and field codes of 30_encoding R95. -/

namespace Sys2Proof

open Sys2Proof.Machine (mkWord hiByte loByte)

/-- What the primary table holds for a byte: an instruction of one byte, one with an 8-bit or a 16-bit immediate, the
extended prefix, or no entry (30_encoding R92, R94). -/
inductive Entry where
  | op (i : Instr)
  | imm8 (mk : Byte → Instr)
  | imm16 (mk : Word → Instr)
  | extended
  | unlisted

/-- Row 0x of the primary map (30_encoding R103). -/
def primaryRows0x : List (Nat × Entry) :=
  [(0x01, .imm16 .ld_BC_d16),
   (0x03, .op .inc_BC),
   (0x04, .op .inc_B),
   (0x05, .op .dec_B),
   (0x06, .imm8 .ld_B_d8),
   (0x0B, .op .dec_BC),
   (0x0C, .op .inc_C),
   (0x0D, .op .dec_C),
   (0x0E, .imm8 .ld_C_d8)]

/-- Row 1x of the primary map (30_encoding R103). -/
def primaryRows1x : List (Nat × Entry) :=
  [(0x11, .imm16 .ld_DE_d16),
   (0x13, .op .inc_DE),
   (0x14, .op .inc_D),
   (0x15, .op .dec_D),
   (0x16, .imm8 .ld_D_d8),
   (0x17, .op .rla),
   (0x18, .imm8 .jr_e8),
   (0x1B, .op .dec_DE),
   (0x1C, .op .inc_E),
   (0x1D, .op .dec_E),
   (0x1E, .imm8 .ld_E_d8)]

/-- Row 2x of the primary map (30_encoding R103). -/
def primaryRows2x : List (Nat × Entry) :=
  [(0x20, .imm8 .jr_NZ_e8),
   (0x21, .imm16 .ld_HL_d16),
   (0x23, .op .inc_HL),
   (0x24, .op .inc_H),
   (0x25, .op .dec_H),
   (0x26, .imm8 .ld_H_d8),
   (0x28, .imm8 .jr_Z_e8),
   (0x2B, .op .dec_HL),
   (0x2C, .op .inc_L),
   (0x2D, .op .dec_L),
   (0x2E, .imm8 .ld_L_d8)]

/-- Row 3x of the primary map (30_encoding R103). -/
def primaryRows3x : List (Nat × Entry) :=
  [(0x30, .imm8 .jr_NC_e8),
   (0x31, .imm16 .ld_SP_d16),
   (0x34, .op .inc_atHL),
   (0x35, .op .dec_atHL),
   (0x38, .imm8 .jr_C_e8),
   (0x3C, .op .inc_A),
   (0x3D, .op .dec_A),
   (0x3E, .imm8 .ld_A_d8)]

/-- Row 4x of the primary map (30_encoding R103). -/
def primaryRows4x : List (Nat × Entry) :=
  [(0x40, .op .ld_B_B),
   (0x41, .op .ld_B_C),
   (0x42, .op .ld_B_D),
   (0x43, .op .ld_B_E),
   (0x44, .op .ld_B_H),
   (0x45, .op .ld_B_L),
   (0x46, .op .ld_B_atHL),
   (0x47, .op .ld_B_A),
   (0x48, .op .ld_C_B),
   (0x49, .op .ld_C_C),
   (0x4A, .op .ld_C_D),
   (0x4B, .op .ld_C_E),
   (0x4C, .op .ld_C_H),
   (0x4D, .op .ld_C_L),
   (0x4E, .op .ld_C_atHL),
   (0x4F, .op .ld_C_A)]

/-- Row 5x of the primary map (30_encoding R103). -/
def primaryRows5x : List (Nat × Entry) :=
  [(0x50, .op .ld_D_B),
   (0x51, .op .ld_D_C),
   (0x52, .op .ld_D_D),
   (0x53, .op .ld_D_E),
   (0x54, .op .ld_D_H),
   (0x55, .op .ld_D_L),
   (0x56, .op .ld_D_atHL),
   (0x57, .op .ld_D_A),
   (0x58, .op .ld_E_B),
   (0x59, .op .ld_E_C),
   (0x5A, .op .ld_E_D),
   (0x5B, .op .ld_E_E),
   (0x5C, .op .ld_E_H),
   (0x5D, .op .ld_E_L),
   (0x5E, .op .ld_E_atHL),
   (0x5F, .op .ld_E_A)]

/-- Row 6x of the primary map (30_encoding R103). -/
def primaryRows6x : List (Nat × Entry) :=
  [(0x60, .op .ld_H_B),
   (0x61, .op .ld_H_C),
   (0x62, .op .ld_H_D),
   (0x63, .op .ld_H_E),
   (0x64, .op .ld_H_H),
   (0x65, .op .ld_H_L),
   (0x66, .op .ld_H_atHL),
   (0x67, .op .ld_H_A),
   (0x68, .op .ld_L_B),
   (0x69, .op .ld_L_C),
   (0x6A, .op .ld_L_D),
   (0x6B, .op .ld_L_E),
   (0x6C, .op .ld_L_H),
   (0x6D, .op .ld_L_L),
   (0x6E, .op .ld_L_atHL),
   (0x6F, .op .ld_L_A)]

/-- Row 7x of the primary map (30_encoding R103). -/
def primaryRows7x : List (Nat × Entry) :=
  [(0x70, .op .ld_atHL_B),
   (0x71, .op .ld_atHL_C),
   (0x72, .op .ld_atHL_D),
   (0x73, .op .ld_atHL_E),
   (0x74, .op .ld_atHL_H),
   (0x75, .op .ld_atHL_L),
   (0x76, .op .ld_atHL_atHL),
   (0x77, .op .ld_atHL_A),
   (0x78, .op .ld_A_B),
   (0x79, .op .ld_A_C),
   (0x7A, .op .ld_A_D),
   (0x7B, .op .ld_A_E),
   (0x7C, .op .ld_A_H),
   (0x7D, .op .ld_A_L),
   (0x7E, .op .ld_A_atHL),
   (0x7F, .op .ld_A_A)]

/-- Row 8x of the primary map (30_encoding R103). -/
def primaryRows8x : List (Nat × Entry) :=
  [(0x80, .op .add_A_B),
   (0x81, .op .add_A_C),
   (0x82, .op .add_A_D),
   (0x83, .op .add_A_E),
   (0x84, .op .add_A_H),
   (0x85, .op .add_A_L),
   (0x86, .op .add_A_atHL),
   (0x87, .op .add_A_A)]

/-- Row 9x of the primary map (30_encoding R103). -/
def primaryRows9x : List (Nat × Entry) :=
  [(0x90, .op .sub_B),
   (0x91, .op .sub_C),
   (0x92, .op .sub_D),
   (0x93, .op .sub_E),
   (0x94, .op .sub_H),
   (0x95, .op .sub_L),
   (0x96, .op .sub_atHL),
   (0x97, .op .sub_A)]

/-- Row Ax of the primary map (30_encoding R103). -/
def primaryRowsAx : List (Nat × Entry) :=
  [(0xA8, .op .xor_B),
   (0xA9, .op .xor_C),
   (0xAA, .op .xor_D),
   (0xAB, .op .xor_E),
   (0xAC, .op .xor_H),
   (0xAD, .op .xor_L),
   (0xAE, .op .xor_atHL),
   (0xAF, .op .xor_A)]

/-- Row Bx of the primary map (30_encoding R103). -/
def primaryRowsBx : List (Nat × Entry) :=
  [(0xB8, .op .cp_B),
   (0xB9, .op .cp_C),
   (0xBA, .op .cp_D),
   (0xBB, .op .cp_E),
   (0xBC, .op .cp_H),
   (0xBD, .op .cp_L),
   (0xBE, .op .cp_atHL),
   (0xBF, .op .cp_A)]

/-- Row Cx of the primary map (30_encoding R103). -/
def primaryRowsCx : List (Nat × Entry) :=
  [(0xC1, .op .pop_BC),
   (0xC5, .op .push_BC),
   (0xC6, .imm8 .add_A_d8),
   (0xC9, .op .ret),
   (0xCD, .imm16 .call_a16)]

/-- Row Dx of the primary map (30_encoding R103). -/
def primaryRowsDx : List (Nat × Entry) :=
  [(0xD1, .op .pop_DE),
   (0xD5, .op .push_DE),
   (0xD6, .imm8 .sub_d8)]

/-- Row Ex of the primary map (30_encoding R103). -/
def primaryRowsEx : List (Nat × Entry) :=
  [(0xE0, .imm8 .ldh_atA8_A),
   (0xE1, .op .pop_HL),
   (0xE2, .op .ld_atC_A),
   (0xE5, .op .push_HL),
   (0xEA, .imm16 .ld_atA16_A)]

/-- Row Fx of the primary map (30_encoding R103). -/
def primaryRowsFx : List (Nat × Entry) :=
  [(0xF0, .imm8 .ldh_A_atA8),
   (0xF1, .op .pop_AF),
   (0xF2, .op .ld_A_atC),
   (0xF5, .op .push_AF),
   (0xFA, .imm16 .ld_A_atA16),
   (0xFE, .imm8 .cp_d8)]

/-- The primary map, 154 instructions and the prefix 0xCB (30_encoding R96, R103). -/
def primaryRows : List (Nat × Entry) :=
  primaryRows0x ++ primaryRows1x ++ primaryRows2x ++ primaryRows3x ++ primaryRows4x ++ primaryRows5x ++ primaryRows6x ++ primaryRows7x ++
  primaryRows8x ++ primaryRows9x ++ primaryRowsAx ++ primaryRowsBx ++ primaryRowsCx ++ primaryRowsDx ++ primaryRowsEx ++ primaryRowsFx ++ [(0xCB, .extended)]

/-- The extended map, 16 instructions, by the byte after the prefix (30_encoding R104). -/
def extendedRows : List (Nat × Instr) :=
  [(0x10, .rl_B),
   (0x11, .rl_C),
   (0x12, .rl_D),
   (0x13, .rl_E),
   (0x14, .rl_H),
   (0x15, .rl_L),
   (0x16, .rl_atHL),
   (0x17, .rl_A),
   (0x78, .bit7_B),
   (0x79, .bit7_C),
   (0x7A, .bit7_D),
   (0x7B, .bit7_E),
   (0x7C, .bit7_H),
   (0x7D, .bit7_L),
   (0x7E, .bit7_atHL),
   (0x7F, .bit7_A)]

/-- The primary table's entry for an opcode byte; a byte with no row is unlisted (30_encoding R97). -/
def primaryEntry (op : Byte) : Entry :=
  (primaryRows.lookup op.toNat).getD .unlisted

/-- The extended table's entry for the byte after the prefix. -/
def extendedEntry (op : Byte) : Option Instr :=
  extendedRows.lookup op.toNat

/-- What the decoder answers on a list of bytes. -/
inductive DecodeResult where
  /-- the first bytes are this instruction, and these bytes follow it -/
  | ok (i : Instr) (rest : List Byte)
  /-- the table has no entry for the byte (30_encoding R97) -/
  | unlisted (table : OpTable) (byte : Byte)
  /-- the list ends inside the instruction -/
  | truncated
  deriving DecidableEq, Repr

/-- The decoder, total on any bytes; 16-bit immediates are low byte first (30_encoding R92, R93, R100). -/
def decode : List Byte → DecodeResult
  | [] => .truncated
  | op :: bs =>
    match primaryEntry op, bs with
    | .op i, rest => .ok i rest
    | .imm8 mk, v :: rest => .ok (mk v) rest
    | .imm8 _, [] => .truncated
    | .imm16 mk, lo :: hi :: rest => .ok (mk (mkWord hi lo)) rest
    | .imm16 _, _ => .truncated
    | .extended, [] => .truncated
    | .extended, op2 :: rest =>
      match extendedEntry op2 with
      | some i => .ok i rest
      | none => .unlisted .extended op2
    | .unlisted, _ => .unlisted .primary op

/-- The form of each instruction: its family and operands (the families of 41_loads to 47_extended). -/
def Instr.form : Instr → Form
  | .ld_BC_d16 v => .ldPair .bc v
  | .inc_BC => .incPair .bc
  | .inc_B => .inc .b
  | .dec_B => .dec .b
  | .ld_B_d8 v => .ldImm .b v
  | .dec_BC => .decPair .bc
  | .inc_C => .inc .c
  | .dec_C => .dec .c
  | .ld_C_d8 v => .ldImm .c v
  | .ld_DE_d16 v => .ldPair .de v
  | .inc_DE => .incPair .de
  | .inc_D => .inc .d
  | .dec_D => .dec .d
  | .ld_D_d8 v => .ldImm .d v
  | .rla => .rla
  | .jr_e8 v => .jr v
  | .dec_DE => .decPair .de
  | .inc_E => .inc .e
  | .dec_E => .dec .e
  | .ld_E_d8 v => .ldImm .e v
  | .jr_NZ_e8 v => .jrCond .nz v
  | .ld_HL_d16 v => .ldPair .hl v
  | .inc_HL => .incPair .hl
  | .inc_H => .inc .h
  | .dec_H => .dec .h
  | .ld_H_d8 v => .ldImm .h v
  | .jr_Z_e8 v => .jrCond .z v
  | .dec_HL => .decPair .hl
  | .inc_L => .inc .l
  | .dec_L => .dec .l
  | .ld_L_d8 v => .ldImm .l v
  | .jr_NC_e8 v => .jrCond .nc v
  | .ld_SP_d16 v => .ldPair .sp v
  | .inc_atHL => .inc .atHL
  | .dec_atHL => .dec .atHL
  | .jr_C_e8 v => .jrCond .c v
  | .inc_A => .inc .a
  | .dec_A => .dec .a
  | .ld_A_d8 v => .ldImm .a v
  | .ld_B_B => .ld .b .b
  | .ld_B_C => .ld .b .c
  | .ld_B_D => .ld .b .d
  | .ld_B_E => .ld .b .e
  | .ld_B_H => .ld .b .h
  | .ld_B_L => .ld .b .l
  | .ld_B_atHL => .ld .b .atHL
  | .ld_B_A => .ld .b .a
  | .ld_C_B => .ld .c .b
  | .ld_C_C => .ld .c .c
  | .ld_C_D => .ld .c .d
  | .ld_C_E => .ld .c .e
  | .ld_C_H => .ld .c .h
  | .ld_C_L => .ld .c .l
  | .ld_C_atHL => .ld .c .atHL
  | .ld_C_A => .ld .c .a
  | .ld_D_B => .ld .d .b
  | .ld_D_C => .ld .d .c
  | .ld_D_D => .ld .d .d
  | .ld_D_E => .ld .d .e
  | .ld_D_H => .ld .d .h
  | .ld_D_L => .ld .d .l
  | .ld_D_atHL => .ld .d .atHL
  | .ld_D_A => .ld .d .a
  | .ld_E_B => .ld .e .b
  | .ld_E_C => .ld .e .c
  | .ld_E_D => .ld .e .d
  | .ld_E_E => .ld .e .e
  | .ld_E_H => .ld .e .h
  | .ld_E_L => .ld .e .l
  | .ld_E_atHL => .ld .e .atHL
  | .ld_E_A => .ld .e .a
  | .ld_H_B => .ld .h .b
  | .ld_H_C => .ld .h .c
  | .ld_H_D => .ld .h .d
  | .ld_H_E => .ld .h .e
  | .ld_H_H => .ld .h .h
  | .ld_H_L => .ld .h .l
  | .ld_H_atHL => .ld .h .atHL
  | .ld_H_A => .ld .h .a
  | .ld_L_B => .ld .l .b
  | .ld_L_C => .ld .l .c
  | .ld_L_D => .ld .l .d
  | .ld_L_E => .ld .l .e
  | .ld_L_H => .ld .l .h
  | .ld_L_L => .ld .l .l
  | .ld_L_atHL => .ld .l .atHL
  | .ld_L_A => .ld .l .a
  | .ld_atHL_B => .ld .atHL .b
  | .ld_atHL_C => .ld .atHL .c
  | .ld_atHL_D => .ld .atHL .d
  | .ld_atHL_E => .ld .atHL .e
  | .ld_atHL_H => .ld .atHL .h
  | .ld_atHL_L => .ld .atHL .l
  | .ld_atHL_atHL => .ld .atHL .atHL
  | .ld_atHL_A => .ld .atHL .a
  | .ld_A_B => .ld .a .b
  | .ld_A_C => .ld .a .c
  | .ld_A_D => .ld .a .d
  | .ld_A_E => .ld .a .e
  | .ld_A_H => .ld .a .h
  | .ld_A_L => .ld .a .l
  | .ld_A_atHL => .ld .a .atHL
  | .ld_A_A => .ld .a .a
  | .add_A_B => .alu .add (.slot .b)
  | .add_A_C => .alu .add (.slot .c)
  | .add_A_D => .alu .add (.slot .d)
  | .add_A_E => .alu .add (.slot .e)
  | .add_A_H => .alu .add (.slot .h)
  | .add_A_L => .alu .add (.slot .l)
  | .add_A_atHL => .alu .add (.slot .atHL)
  | .add_A_A => .alu .add (.slot .a)
  | .sub_B => .alu .sub (.slot .b)
  | .sub_C => .alu .sub (.slot .c)
  | .sub_D => .alu .sub (.slot .d)
  | .sub_E => .alu .sub (.slot .e)
  | .sub_H => .alu .sub (.slot .h)
  | .sub_L => .alu .sub (.slot .l)
  | .sub_atHL => .alu .sub (.slot .atHL)
  | .sub_A => .alu .sub (.slot .a)
  | .xor_B => .alu .xor (.slot .b)
  | .xor_C => .alu .xor (.slot .c)
  | .xor_D => .alu .xor (.slot .d)
  | .xor_E => .alu .xor (.slot .e)
  | .xor_H => .alu .xor (.slot .h)
  | .xor_L => .alu .xor (.slot .l)
  | .xor_atHL => .alu .xor (.slot .atHL)
  | .xor_A => .alu .xor (.slot .a)
  | .cp_B => .alu .cp (.slot .b)
  | .cp_C => .alu .cp (.slot .c)
  | .cp_D => .alu .cp (.slot .d)
  | .cp_E => .alu .cp (.slot .e)
  | .cp_H => .alu .cp (.slot .h)
  | .cp_L => .alu .cp (.slot .l)
  | .cp_atHL => .alu .cp (.slot .atHL)
  | .cp_A => .alu .cp (.slot .a)
  | .pop_BC => .pop .bc
  | .push_BC => .push .bc
  | .add_A_d8 v => .alu .add (.imm v)
  | .ret => .ret
  | .call_a16 v => .call v
  | .pop_DE => .pop .de
  | .push_DE => .push .de
  | .sub_d8 v => .alu .sub (.imm v)
  | .ldh_atA8_A v => .storeHigh v
  | .pop_HL => .pop .hl
  | .ld_atC_A => .storeHighC
  | .push_HL => .push .hl
  | .ld_atA16_A v => .storeAbs v
  | .ldh_A_atA8 v => .loadHigh v
  | .pop_AF => .pop .af
  | .ld_A_atC => .loadHighC
  | .push_AF => .push .af
  | .ld_A_atA16 v => .loadAbs v
  | .cp_d8 v => .alu .cp (.imm v)
  | .rl_B => .rl .b
  | .rl_C => .rl .c
  | .rl_D => .rl .d
  | .rl_E => .rl .e
  | .rl_H => .rl .h
  | .rl_L => .rl .l
  | .rl_atHL => .rl .atHL
  | .rl_A => .rl .a
  | .bit7_B => .bit7 .b
  | .bit7_C => .bit7 .c
  | .bit7_D => .bit7 .d
  | .bit7_E => .bit7 .e
  | .bit7_H => .bit7 .h
  | .bit7_L => .bit7 .l
  | .bit7_atHL => .bit7 .atHL
  | .bit7_A => .bit7 .a

/-- An instruction is well-formed when its form is one that 30_encoding R95 admits. -/
def Instr.wellFormed (i : Instr) : Bool := i.form.wellFormed

/-- The r3 code of an operand slot (00_scope R14). -/
def Slot.code : Slot → Byte
  | .b => 0 | .c => 1 | .d => 2 | .e => 3 | .h => 4 | .l => 5 | .atHL => 6 | .a => 7

/-- The `pp` code (30_encoding R95). -/
def PairSP.code : PairSP → Byte
  | .bc => 0 | .de => 1 | .hl => 2 | .sp => 3

/-- The `qq` code (30_encoding R95). -/
def Pair.code : Pair → Byte
  | .bc => 0 | .de => 1 | .hl => 2 | .af => 3

/-- The `cc` code (30_encoding R95). -/
def Cond.code : Cond → Byte
  | .nz => 0 | .z => 1 | .nc => 2 | .c => 3

/-- The operation field b[5:3] of the accumulator operations (30_encoding R95). -/
def AluOp.code : AluOp → Byte
  | .add => 0 | .sub => 2 | .xor => 5 | .cp => 7

/-- The bytes of a form, from the patterns of 30_encoding R95 and the layouts of R94. -/
def Form.encode : Form → List Byte
  | .ldPair p v => [0b00000001#8 ||| p.code <<< 4, loByte v, hiByte v]
  | .ldImm dst v => [0b00000110#8 ||| dst.code <<< 3, v]
  | .ld dst src => [0b01000000#8 ||| dst.code <<< 3 ||| src.code]
  | .inc dst => [0b00000100#8 ||| dst.code <<< 3]
  | .dec dst => [0b00000101#8 ||| dst.code <<< 3]
  | .incPair p => [0b00000011#8 ||| p.code <<< 4]
  | .decPair p => [0b00001011#8 ||| p.code <<< 4]
  | .alu op (.slot r) => [0b10000000#8 ||| op.code <<< 3 ||| r.code]
  | .alu op (.imm v) => [0b11000110#8 ||| op.code <<< 3, v]
  | .push q => [0b11000101#8 ||| q.code <<< 4]
  | .pop q => [0b11000001#8 ||| q.code <<< 4]
  | .jr e => [0b00011000#8, e]
  | .jrCond cc e => [0b00100000#8 ||| cc.code <<< 3, e]
  | .call t => [0b11001101#8, loByte t, hiByte t]
  | .ret => [0b11001001#8]
  | .storeHigh o => [0b11100000#8, o]
  | .loadHigh o => [0b11110000#8, o]
  | .storeHighC => [0b11100010#8]
  | .loadHighC => [0b11110010#8]
  | .storeAbs t => [0b11101010#8, loByte t, hiByte t]
  | .loadAbs t => [0b11111010#8, loByte t, hiByte t]
  | .rla => [0b00010111#8]
  | .rl dst => [0b11001011#8, 0b00010000#8 ||| dst.code]
  | .bit7 dst => [0b11001011#8, 0b01111000#8 ||| dst.code]

/-- The bytes of an instruction, opcode first. -/
def encode (i : Instr) : List Byte := i.form.encode

/-- The first `n` bytes of a word numbered from its least significant bit. -/
def wordBytes : Nat → Nat → List Byte
  | 0, _ => []
  | n + 1, w => BitVec.ofNat 8 w :: wordBytes n (w / 256)

/-- The longest instruction's length in bytes (30_encoding R90). -/
def maxLength : Nat := 3

/-- The bytes of a table word: `nbits` bits of `w`, the bits above them zero, up to the longest instruction; the
first byte is bits 7-0. -/
def tableWordBytes (nbits w : Nat) : List Byte := wordBytes maxLength (w % 2 ^ nbits)

/-- The instruction the decoder reads from a table word. -/
def decodeTableWord (nbits w : Nat) : Option Instr :=
  match decode (tableWordBytes nbits w) with
  | .ok i _ => some i
  | .unlisted _ _ => none
  | .truncated => none

end Sys2Proof
end

