-- ==== Sys2Proof/Machine/Fetch.lean ====
section
/-! DEFINITION. Fetching and decoding the next instruction through the router (30_encoding R91, R92, R102), and placing an
instruction where the next fetch reads it. -/

namespace Sys2Proof.Machine

/-- Fetch the next instruction with its immediates: the opcode, the second opcode byte after the prefix, then the
immediates; a byte with no entry is fatal before any immediate is fetched (30_encoding R102, 60_exceptions R242,
R247). The state it answers has PC after the instruction. -/
def fetchInstr (s : State) : Res Instr :=
  (fetch8 s).andThen fun op s1 =>
    match primaryEntry op with
    | .op i => .ok i s1
    | .imm8 mk => (fetch8 s1).andThen fun v s2 => .ok (mk v) s2
    | .imm16 mk => (fetch16 s1).andThen fun v s2 => .ok (mk v) s2
    | .extended =>
      (fetch8 s1).andThen fun op2 s2 =>
        match extendedEntry op2 with
        | some i => .ok i s2
        | none => raise (.unimplementedOpcode .extended op2 s1.pc) s2
    | .unlisted => raise (.unimplementedOpcode .primary op s.pc) s1

/-- A byte placed at an address is what a fetch from that address reads: the overlay while it is enabled, or stored
memory; not the scanline register, the stubs or the unmodeled band (20_memory R60). -/
def holdsCode (a : Word) : Bool :=
  match region a with
  | .bootArea => true
  | .plain => true
  | .scy => true
  | .scx => true
  | .bootLatch => true
  | .ly => false
  | .sound => false
  | .lcdc => false
  | .bgp => false
  | .unmodeled => false

/-- Place one byte where a fetch from `a` reads it: in the boot image while the overlay is in front, else in
memory. -/
def placeByte (s : State) (a : Word) (v : Byte) : State :=
  if a.toNat ≤ 0x00FF ∧ s.bootRomEnabled then { s with bootImage := (a.toNat, v) :: s.bootImage }
  else s.store a v

/-- Place bytes at consecutive addresses. -/
def placeBytes (s : State) (a : Word) : List Byte → State
  | [] => s
  | v :: bs => placeBytes (placeByte s a v) (a + 1) bs

/-- Where a placed instruction goes: PC, or plain RAM at 0xC000 when an address it would take cannot hold code. -/
def placeAddr (s : State) : Word :=
  if holdsCode s.pc && holdsCode (s.pc + 1) && holdsCode (s.pc + 2) then s.pc else 0xC000#16

/-- The state whose next step fetches the bytes: no fault recorded, PC at the place, the bytes there (log entry 3). -/
def placeInstr (s : State) (bs : List Byte) : State :=
  placeBytes { s with fault := none, pc := placeAddr s } (placeAddr s) bs

end Sys2Proof.Machine
end

