-- ==== Sys2Proof/Machine/Step.lean ====
section
/-! DEFINITION. One step of the Instruction Engine (30_encoding R102). -/

namespace Sys2Proof.Machine

/-- A state with a recorded fault has no further step; otherwise fetch, decode and execute one instruction
(30_encoding R102, 60_exceptions R241). -/
def step (s : State) : Host.Outcome State Fault Refusal :=
  match s.fault with
  | some r => .fault (faultOf r s)
  | none =>
    match fetchInstr s with
    | .ok i s1 => exec i s1
    | .fault r => .fault r

/-- The state with a table word's instruction stored where `step` fetches its next instruction (log entry 3). -/
def State.withFetchWord (s : State) (nbits w : Nat) : State := placeInstr s (tableWordBytes nbits w)

end Sys2Proof.Machine
end

