-- ==== Sys2Proof/Machine/Dump.lean ====
section
/-! DEFINITION. The register dump the controller may print between steps (60_exceptions R263). It reads the state only.
What the spec leaves open of it is the parameter `DumpFormat` (00_scope R9, log entry 20). -/

namespace Sys2Proof.Machine

/-- One letter per set flag in the order Z N H C, and `-` for each clear flag (60_exceptions R263). -/
def flagString (s : State) : List Char :=
  let fl := flagsOfByte s.f
  [if fl.z then 'Z' else '-', if fl.n then 'N' else '-', if fl.h then 'H' else '-', if fl.c then 'C' else '-']

/-- What a dump prints: a register or one of the 16-bit values. -/
inductive DumpItem where
  | reg (r : Reg8)
  | pair (p : Pair)
  | pc
  | sp
  | flags
  deriving DecidableEq, Repr

/-- The parameter `DumpFormat`: the items in their order, the text between two of them, and the case of the hex
letters. -/
structure DumpFormat where
  items : List DumpItem
  separator : List Char
  upper : Bool
  deriving DecidableEq, Repr

/-- A hexadecimal digit. -/
def hexDigit (upper : Bool) (n : Nat) : Char :=
  if n < 10 then Char.ofNat (48 + n) else if upper then Char.ofNat (55 + n) else Char.ofNat (87 + n)

/-- The last `digits` hexadecimal digits of a number, most significant first. -/
def hexField (upper : Bool) : Nat → Nat → List Char
  | 0, _ => []
  | k + 1, n => hexField upper k (n / 16) ++ [hexDigit upper (n % 16)]

/-- An item's text: 2 hex digits for an 8-bit register, 4 for a 16-bit value (60_exceptions R263). -/
def dumpItem (fmt : DumpFormat) (s : State) : DumpItem → List Char
  | .reg r => hexField fmt.upper 2 (s.getReg r).toNat
  | .pair p => hexField fmt.upper 4 (s.getPair p).toNat
  | .pc => hexField fmt.upper 4 s.pc.toNat
  | .sp => hexField fmt.upper 4 s.sp.toNat
  | .flags => flagString s

/-- The register dump. -/
def dump (fmt : DumpFormat) (s : State) : List Char :=
  fmt.separator.intercalate (fmt.items.map (dumpItem fmt s))

end Sys2Proof.Machine
end

