-- ==== Sys2Proof/Machine/Boot.lean ====
section
/-! DEFINITION. The start of a session with the host's images (70_reset_and_hazards R270, R271, 60_exceptions R245,
R266). -/

namespace Sys2Proof.Machine

/-- The bytes of an image as cells, from address `base` on. -/
def imageCells (base : Nat) : List Byte → List Host.Cell
  | [] => []
  | v :: bs => (base, v) :: imageCells (base + 1) bs

/-- The parameter `BootImage`: 256 bytes, the first of them 0x31; the others are open (00_scope R9, 10_state R35). -/
structure BootImage where
  bytes : List Byte
  /-- the overlay's size -/
  size : bytes.length = Config.bootSize
  /-- the first byte, the opcode of LD SP,d16 -/
  first : bytes[0]? = some 0x31#8
  deriving DecidableEq, Repr

/-- `reset(BootImage, CartImage)`: registers zeroed, memory zero-filled, the cartridge image in the low addresses, the
boot image in front, the overlay enabled (70_reset_and_hazards R270). -/
def resetWith (boot : BootImage) (cart : List Byte) : State :=
  { State.reset with mem := Memory.ofImage 0 cart, bootImage := imageCells 0 boot.bytes }

/-- The session's start: `cart` holds the bytes the loader read, or nothing if the file is missing or unreadable or
could not be closed; anything but exactly 32,768 bytes is StartupIO, before any step (60_exceptions R245). -/
def startup (boot : BootImage) (cart : Option (List Byte)) : StepResult :=
  match cart with
  | none => .fault .startupIO
  | some bs => if bs.length = Config.cartSize then .next (resetWith boot bs) else .fault .startupIO

end Sys2Proof.Machine
end

