-- ==== Sys2Proof/Safety.lean ====
section
/-! DEFINITION. The vocabulary of the claims: what the router answers at each address, written from the register map of
20_memory R56 rather than from the region test of R55; what an instruction may write, from the tables of 10_state R21
and R27; and the invariant of every reachable state. -/

namespace Sys2Proof.Safety

open Sys2Proof.Machine

/-! ### Router -/

/-- The unmodeled band, listed in full (20_memory R56). -/
def unmodeledAddr (a : Word) : Bool :=
  decide ((0xFF00 ≤ a.toNat ∧ a.toNat ≤ 0xFF0F) ∨ a.toNat = 0xFF1F ∨ (0xFF27 ≤ a.toNat ∧ a.toNat ≤ 0xFF2F) ∨
    a.toNat = 0xFF41 ∨ a.toNat = 0xFF45 ∨ a.toNat = 0xFF46 ∨ (0xFF48 ≤ a.toNat ∧ a.toNat ≤ 0xFF4F) ∨
    (0xFF51 ≤ a.toNat ∧ a.toNat ≤ 0xFF7F))

/-- The addresses whose read is a draw: the sound registers, LCD control, the palette (00_scope R9). -/
def stubAddr (a : Word) : Bool :=
  decide ((0xFF10 ≤ a.toNat ∧ a.toNat ≤ 0xFF1E) ∨ (0xFF20 ≤ a.toNat ∧ a.toNat ≤ 0xFF26) ∨
    (0xFF30 ≤ a.toNat ∧ a.toNat ≤ 0xFF3F) ∨ a.toNat = 0xFF40 ∨ a.toNat = 0xFF47)

/-- The overlay is in front of this address (20_memory R67). -/
def overlaid (s : State) (a : Word) : Bool := decide (a.toNat < 0x100) && s.bootRomEnabled

/-- A read of the address does not fault (60_exceptions R243). -/
def readable (a : Word) : Bool := !unmodeledAddr a

/-- A write of the address does not fault (60_exceptions R243). -/
def writable (s : State) (a : Word) : Bool := !unmodeledAddr a && a.toNat != 0xFF44 && !overlaid s a

/-- The byte a read of a readable address yields (20_memory R60). -/
def readValue (s : State) (a : Word) : Byte :=
  if overlaid s a then bootByte s a
  else if stubAddr a then Config.stubRead s.draws
  else if a.toNat = 0xFF44 then 144
  else s.mem.read a.toNat

/-- The state after a read: a read changes no state of the spec (20_memory R70); the model counts a draw. -/
def afterRead (s : State) (a : Word) : State :=
  { s with draws := if stubAddr a then s.draws + 1 else s.draws }

/-- The state after a write of a writable address (20_memory R61, R62). -/
def afterWrite (s : State) (a : Word) (v : Byte) : State :=
  { s with
    mem := s.mem.write a.toNat v
    bootRomEnabled := if a.toNat = 0xFF50 ∧ v ≠ 0 then false else s.bootRomEnabled }

/-- The step's answer when an access is illegal: the condition is recorded in the state reached so far
(60_exceptions R241, R243). -/
def illegal (a : Word) (k : Access) (s : State) : StepResult :=
  .fault (.illegalMemoryAccess a k { s with fault := some (.illegalMemoryAccess a k) })

/-! ### Operand slots -/

/-- The address HL points to: H in bits 15-8 (10_state R23). -/
def hlAddr (s : State) : Word := BitVec.ofNat 16 (s.h.toNat * 256 + s.l.toNat)

/-- Reading the slot does not fault. -/
def slotReadable (x : Slot) (s : State) : Bool :=
  match x with
  | .b => true
  | .c => true
  | .d => true
  | .e => true
  | .h => true
  | .l => true
  | .atHL => readable (hlAddr s)
  | .a => true

/-- Writing the slot does not fault. -/
def slotWritable (x : Slot) (s : State) : Bool :=
  match x with
  | .b => true
  | .c => true
  | .d => true
  | .e => true
  | .h => true
  | .l => true
  | .atHL => writable s (hlAddr s)
  | .a => true

/-- The slot's byte. -/
def slotValue (x : Slot) (s : State) : Byte :=
  match x with
  | .b => s.b
  | .c => s.c
  | .d => s.d
  | .e => s.e
  | .h => s.h
  | .l => s.l
  | .atHL => readValue s (hlAddr s)
  | .a => s.a

/-- The state after the slot was read. -/
def afterSlotRead (x : Slot) (s : State) : State :=
  match x with
  | .b => s
  | .c => s
  | .d => s
  | .e => s
  | .h => s
  | .l => s
  | .atHL => afterRead s (hlAddr s)
  | .a => s

/-- The state after the slot was written. -/
def afterSlotWrite (x : Slot) (v : Byte) (s : State) : State :=
  match x with
  | .b => { s with b := v }
  | .c => { s with c := v }
  | .d => { s with d := v }
  | .e => { s with e := v }
  | .h => { s with h := v }
  | .l => { s with l := v }
  | .atHL => afterWrite s (hlAddr s) v
  | .a => { s with a := v }

/-- Reading the second operand of an accumulator operation does not fault. -/
def srcReadable (x : AluSrc) (s : State) : Bool :=
  match x with
  | .slot r => slotReadable r s
  | .imm _ => true

/-- The second operand's byte. -/
def srcValue (x : AluSrc) (s : State) : Byte :=
  match x with
  | .slot r => slotValue r s
  | .imm v => v

/-- The state after the second operand was read. -/
def afterSrcRead (x : AluSrc) (s : State) : State :=
  match x with
  | .slot r => afterSlotRead r s
  | .imm _ => s

/-! ### Flags -/

/-- The byte of F for four flags: Z is 0x80, N 0x40, H 0x20, C 0x10 (10_state R26). -/
def flagByte (z n h c : Bool) : Byte :=
  BitVec.ofNat 8 ((if z then 128 else 0) + (if n then 64 else 0) + (if h then 32 else 0) + (if c then 16 else 0))

/-- The carry flag, bit 4 of F. -/
def carry (s : State) : Bool := s.f.toNat / 16 % 2 == 1

/-- The zero flag, bit 7 of F. -/
def zero (s : State) : Bool := s.f.toNat / 128 % 2 == 1

/-- Bits 3-0 of F are 0 (10_state R25). -/
def flagsOk (s : State) : Prop := s.f.toNat % 16 = 0

/-! ### Pairs and stack -/

/-- The high register of a pair (10_state R23). -/
def pairHi (p : Pair) (s : State) : Byte :=
  match p with
  | .bc => s.b
  | .de => s.d
  | .hl => s.h
  | .af => s.a

/-- The low register of a pair (10_state R23). -/
def pairLo (p : Pair) (s : State) : Byte :=
  match p with
  | .bc => s.c
  | .de => s.e
  | .hl => s.l
  | .af => s.f

/-- A 16-bit value from its two bytes. -/
def wordOf (hi lo : Byte) : Word := BitVec.ofNat 16 (hi.toNat * 256 + lo.toNat)

/-- The high byte of a 16-bit value. -/
def highOf (v : Word) : Byte := BitVec.ofNat 8 (v.toNat / 256)

/-- The low byte of a 16-bit value. -/
def lowOf (v : Word) : Byte := BitVec.ofNat 8 (v.toNat % 256)

/-- The state with a pair's two registers written; AF keeps only the high nibble of its low byte (10_state R24). -/
def withPair (p : Pair) (hi lo : Byte) (s : State) : State :=
  match p with
  | .bc => { s with b := hi, c := lo }
  | .de => { s with d := hi, e := lo }
  | .hl => { s with h := hi, l := lo }
  | .af => { s with a := hi, f := BitVec.ofNat 8 (lo.toNat / 16 * 16) }

/-- The byte a pop reads low, at SP+2. -/
def popLow (s : State) : Byte := readValue s (s.sp + 2)

/-- The byte a pop reads high, at SP+3, after the low one was read. -/
def popHigh (s : State) : Byte := readValue (afterRead s (s.sp + 2)) (s.sp + 3)

/-- The state after a pop's two reads: SP moved up by two. -/
def afterPop (s : State) : State :=
  { afterRead (afterRead s (s.sp + 2)) (s.sp + 3) with sp := s.sp + 2 }

/-- The state after a push of the bytes `hi`, `lo`: the low byte at SP, the high byte at SP+1, SP moved down by two. -/
def afterPush (hi lo : Byte) (s : State) : State :=
  { afterWrite (afterWrite s s.sp lo) (s.sp + 1) hi with sp := s.sp - 2 }

/-- Both writes of a push of the byte `lo` first succeed. -/
def pushWritable (lo : Byte) (s : State) : Bool :=
  writable s s.sp && writable (afterWrite s s.sp lo) (s.sp + 1)

/-- What pushing the bytes `hi`, `lo` and then doing `k` answers in every case: the low byte's write fault, with nothing
written; the high byte's, with the low byte written and SP unchanged; or `k` of the state after (44_stack R190). -/
def PushesThen (answer : StepResult) (hi lo : Byte) (s : State) (k : State → State) : Prop :=
  (pushWritable lo s = true → answer = .next (k (afterPush hi lo s))) ∧
  (writable s s.sp = false → answer = illegal s.sp .write s) ∧
  (writable s s.sp = true → writable (afterWrite s s.sp lo) (s.sp + 1) = false →
    answer = illegal (s.sp + 1) .write (afterWrite s s.sp lo))

/-- What popping and then doing `k` answers in every case: a read fault at SP+2 or at SP+3, with SP already moved; or
`k` of the bytes and the state after (44_stack R191). -/
def PopsThen (answer : StepResult) (s : State) (k : Byte → Byte → State → State) : Prop :=
  (readable (s.sp + 2) = true → readable (s.sp + 3) = true →
    answer = .next (k (popHigh s) (popLow s) (afterPop s))) ∧
  (readable (s.sp + 2) = false → answer = illegal (s.sp + 2) .read { s with sp := s.sp + 2 }) ∧
  (readable (s.sp + 2) = true → readable (s.sp + 3) = false →
    answer = illegal (s.sp + 3) .read { afterRead s (s.sp + 2) with sp := s.sp + 2 })

/-! ### Code in memory -/

/-- The bytes `bs` stand at `a` and after it, as the router reads them, none of them a draw. -/
def CodeAt (s : State) (a : Word) (bs : List Byte) : Prop :=
  ∀ k, k < bs.length →
    readable (a + BitVec.ofNat 16 k) = true ∧ stubAddr (a + BitVec.ofNat 16 k) = false ∧
      bs[k]? = some (readValue s (a + BitVec.ofNat 16 k))

/-- The byte has no entry in its table, by the patterns of 30_encoding R95; the prefix is no entry's absence. -/
def NotAdmitted (t : OpTable) (b : Byte) : Prop :=
  match t with
  | .primary => primaryAdmitted b = false ∧ b ≠ 0xCB#8
  | .extended => extendedAdmitted b = false

/-! ### What an instruction may write -/

/-- The register of a slot, if it is one. -/
def slotRegs (x : Slot) : List Reg8 :=
  match x with
  | .b => [.b]
  | .c => [.c]
  | .d => [.d]
  | .e => [.e]
  | .h => [.h]
  | .l => [.l]
  | .atHL => []
  | .a => [.a]

/-- The two registers of a pair. -/
def pairRegs (p : Pair) : List Reg8 :=
  match p with
  | .bc => [.b, .c]
  | .de => [.d, .e]
  | .hl => [.h, .l]
  | .af => [.a, .f]

/-- The registers a `pp` field names; SP is not one of the eight. -/
def pairSPRegs (p : PairSP) : List Reg8 :=
  match p with
  | .bc => [.b, .c]
  | .de => [.d, .e]
  | .hl => [.h, .l]
  | .sp => []

/-- The 8-bit registers a form may write, F apart (10_state R21). -/
def writtenRegs (fm : Form) : List Reg8 :=
  match fm with
  | .ldPair p _ => pairSPRegs p
  | .ldImm x _ => slotRegs x
  | .ld x _ => slotRegs x
  | .inc x => slotRegs x
  | .dec x => slotRegs x
  | .incPair p => pairSPRegs p
  | .decPair p => pairSPRegs p
  | .alu .add _ => [.a]
  | .alu .sub _ => [.a]
  | .alu .xor _ => [.a]
  | .alu .cp _ => []
  | .push _ => []
  | .pop q => pairRegs q
  | .jr _ => []
  | .jrCond _ _ => []
  | .call _ => []
  | .ret => []
  | .storeHigh _ => []
  | .loadHigh _ => [.a]
  | .storeHighC => []
  | .loadHighC => [.a]
  | .storeAbs _ => []
  | .loadAbs _ => [.a]
  | .rla => [.a]
  | .rl x => slotRegs x
  | .bit7 _ => []

/-- The bits of F a form may change (10_state R27): 7 Z, 6 N, 5 H, 4 C; POP AF also clears bits 3-0 (R24). -/
def writtenFlags (fm : Form) : List Nat :=
  match fm with
  | .ldPair _ _ => []
  | .ldImm _ _ => []
  | .ld _ _ => []
  | .inc _ => [7, 6, 5]
  | .dec _ => [7, 6, 5]
  | .incPair _ => []
  | .decPair _ => []
  | .alu _ _ => [7, 6, 5, 4]
  | .push _ => []
  | .pop .bc => []
  | .pop .de => []
  | .pop .hl => []
  | .pop .af => [7, 6, 5, 4, 3, 2, 1, 0]
  | .jr _ => []
  | .jrCond _ _ => []
  | .call _ => []
  | .ret => []
  | .storeHigh _ => []
  | .loadHigh _ => []
  | .storeHighC => []
  | .loadHighC => []
  | .storeAbs _ => []
  | .loadAbs _ => []
  | .rla => [7, 6, 5, 4]
  | .rl _ => [7, 6, 5, 4]
  | .bit7 _ => [7, 6, 5]

/-- What a form leaves in SP: PUSH and CALL move it down by two, POP and RET up by two, LD SP,d16 loads it
(10_state R21, R30). -/
def spAfter (fm : Form) (sp : Word) : Word :=
  match fm with
  | .ldPair .bc _ => sp
  | .ldPair .de _ => sp
  | .ldPair .hl _ => sp
  | .ldPair .sp v => v
  | .ldImm _ _ => sp
  | .ld _ _ => sp
  | .inc _ => sp
  | .dec _ => sp
  | .incPair _ => sp
  | .decPair _ => sp
  | .alu _ _ => sp
  | .push _ => sp - 2
  | .pop _ => sp + 2
  | .jr _ => sp
  | .jrCond _ _ => sp
  | .call _ => sp - 2
  | .ret => sp + 2
  | .storeHigh _ => sp
  | .loadHigh _ => sp
  | .storeHighC => sp
  | .loadHighC => sp
  | .storeAbs _ => sp
  | .loadAbs _ => sp
  | .rla => sp
  | .rl _ => sp
  | .bit7 _ => sp

/-- Only JR, JR cc, CALL and RET write PC with a target (10_state R29). -/
def transfersControl (fm : Form) : Bool :=
  match fm with
  | .ldPair _ _ => false
  | .ldImm _ _ => false
  | .ld _ _ => false
  | .inc _ => false
  | .dec _ => false
  | .incPair _ => false
  | .decPair _ => false
  | .alu _ _ => false
  | .push _ => false
  | .pop _ => false
  | .jr _ => true
  | .jrCond _ _ => true
  | .call _ => true
  | .ret => true
  | .storeHigh _ => false
  | .loadHigh _ => false
  | .storeHighC => false
  | .loadHighC => false
  | .storeAbs _ => false
  | .loadAbs _ => false
  | .rla => false
  | .rl _ => false
  | .bit7 _ => false

/-- The address a write of a slot stores to. -/
def slotStores (x : Slot) (s : State) : List Word :=
  match x with
  | .b => []
  | .c => []
  | .d => []
  | .e => []
  | .h => []
  | .l => []
  | .atHL => [s.getPair .hl]
  | .a => []

/-- The addresses a form stores a byte to, computed from the state before it as its meaning computes them
(20_memory R51). -/
def storeAddrs (fm : Form) (s : State) : List Word :=
  match fm with
  | .ldPair _ _ => []
  | .ldImm x _ => slotStores x s
  | .ld x _ => slotStores x s
  | .inc x => slotStores x s
  | .dec x => slotStores x s
  | .incPair _ => []
  | .decPair _ => []
  | .alu _ _ => []
  | .push _ => [s.sp, s.sp + 1]
  | .pop _ => []
  | .jr _ => []
  | .jrCond _ _ => []
  | .call _ => [s.sp, s.sp + 1]
  | .ret => []
  | .storeHigh o => [highAddr o]
  | .loadHigh _ => []
  | .storeHighC => [highAddr (s.getReg .c)]
  | .loadHighC => []
  | .storeAbs t => [t]
  | .loadAbs _ => []
  | .rla => []
  | .rl x => slotStores x s
  | .bit7 _ => []

/-- The operand a form reads before a flag accessor runs, for the forms that run one (10_state R27, R28). -/
def flagOperand (fm : Form) : Option AluSrc :=
  match fm with
  | .ldPair _ _ => none
  | .ldImm _ _ => none
  | .ld _ _ => none
  | .inc x => some (.slot x)
  | .dec x => some (.slot x)
  | .incPair _ => none
  | .decPair _ => none
  | .alu _ src => some src
  | .push _ => none
  | .pop _ => none
  | .jr _ => none
  | .jrCond _ e => some (.imm e)
  | .call _ => none
  | .ret => none
  | .storeHigh _ => none
  | .loadHigh _ => none
  | .storeHighC => none
  | .loadHighC => none
  | .storeAbs _ => none
  | .loadAbs _ => none
  | .rla => some (.slot .a)
  | .rl x => some (.slot x)
  | .bit7 x => some (.slot x)

/-! ### The invariant -/

/-- What holds in every reachable state: memory is canonical; F's low nibble is 0 (10_state R25); a nonzero byte in the
latch means that the overlay is off (41_loads R146); no byte was ever stored at the scanline register or in the
unmodeled band (20_memory R63, R58); no fault is recorded. -/
structure Inv (s : State) : Prop where
  memCanonical : s.mem.wf = true
  flagsLowZero : flagsOk s
  latchClosed : s.mem.read 0xFF50 ≠ 0 → s.bootRomEnabled = false
  scanlineUnwritten : s.mem.read 0xFF44 = 0
  bandUnwritten : ∀ a : Word, unmodeledAddr a = true → s.mem.read a.toNat = 0
  running : s.fault = none

/-- A byte of memory that no step reads back: the stored bytes behind the stub registers, the scanline register and
the unmodeled band (20_memory R59). -/
def neverReadBack (a : Word) : Bool := stubAddr a || a.toNat == 0xFF44 || unmodeledAddr a

/-- Two states that differ at most in bytes no step reads back. -/
structure SameButHidden (s t : State) : Prop where
  regs : { s with mem := [] } = { t with mem := [] }
  bytes : ∀ a : Word, neverReadBack a = false → s.mem.read a.toNat = t.mem.read a.toNat

/-- The state a fault carries, if it carries one. -/
def finalState (r : Fault) : Option State :=
  match r with
  | .unimplementedOpcode _ _ _ s => some s
  | .illegalMemoryAccess _ _ s => some s
  | .invariantViolation s => some s
  | .startupIO => none

/-- The condition a fault reports. -/
def conditionOf (r : Fault) : FatalCondition :=
  match r with
  | .unimplementedOpcode t b a _ => .unimplementedOpcode t b a
  | .illegalMemoryAccess a k _ => .illegalMemoryAccess a k
  | .invariantViolation _ => .invariantViolation
  | .startupIO => .startupIO

end Sys2Proof.Safety
end

