-- ==== Sys2Proof/Certificates/Slice0/Obligations.lean ====
section
/-! DEFINITION. The statements for the provers. An instruction's statement is about the state after the fetch, PC being
the address after the instruction; StepRunsTheCodeAtPC carries it to a step. Each says its result as one equation and every
fault of it, and most say the form's bytes. What a statement rests on beside the source's words (the spec's decisions, its
general knowledge) is named by its log entry in notes/assumptions. -/

open Sys2Proof Sys2Proof.Machine Sys2Proof.Safety

/-! ### Encoding -/

/-- One word of every family, written out from its encoding (30_encoding R95, R103, R104). Byte values: log entry 8.
-/
def Obligations.WordsDecodeAsEncoded : Prop :=
  decode [0x01, 0xCD, 0xAB] = .ok (.ld_BC_d16 0xABCD) [] ∧ decode [0x31, 0xFE, 0xFF] = .ok (.ld_SP_d16 0xFFFE) [] ∧
  decode [0x3E, 0x42] = .ok (.ld_A_d8 0x42) [] ∧ decode [0x78] = .ok .ld_A_B [] ∧ decode [0x47] = .ok .ld_B_A [] ∧
  decode [0x46] = .ok .ld_B_atHL [] ∧ decode [0x74] = .ok .ld_atHL_H [] ∧ decode [0x76] = .ok .ld_atHL_atHL [] ∧
  decode [0x3C] = .ok .inc_A [] ∧ decode [0x35] = .ok .dec_atHL [] ∧ decode [0x23] = .ok .inc_HL [] ∧
  decode [0x1B] = .ok .dec_DE [] ∧ decode [0x81] = .ok .add_A_C [] ∧ decode [0xC6, 0x10] = .ok (.add_A_d8 0x10) [] ∧
  decode [0x96] = .ok .sub_atHL [] ∧ decode [0xAF] = .ok .xor_A [] ∧ decode [0xFE, 0x05] = .ok (.cp_d8 0x05) [] ∧
  decode [0xC5] = .ok .push_BC [] ∧ decode [0xF1] = .ok .pop_AF [] ∧ decode [0x18, 0xFE] = .ok (.jr_e8 0xFE) [] ∧
  decode [0x30, 0x10] = .ok (.jr_NC_e8 0x10) [] ∧ decode [0xCD, 0x10, 0x00] = .ok (.call_a16 0x0010) [] ∧
  decode [0xC9] = .ok .ret [] ∧ decode [0xE0, 0x50] = .ok (.ldh_atA8_A 0x50) [] ∧ decode [0xF2] = .ok .ld_A_atC [] ∧
  decode [0xEA, 0x00, 0xD0] = .ok (.ld_atA16_A 0xD000) [] ∧ decode [0x17] = .ok .rla [] ∧
  decode [0xCB, 0x16] = .ok .rl_atHL [] ∧ decode [0xCB, 0x7C] = .ok .bit7_H []

/-- Decoding an instruction's bytes, whatever follows them, gives the instruction and what follows. -/
def Obligations.DecodeOfEncodeIsTheInstruction : Prop :=
  ∀ (i : Instr) (bs : List Byte), decode (encode i ++ bs) = .ok i bs

/-- The other direction: the bytes an instruction was decoded from are its encoding. -/
def Obligations.EncodeOfDecodeIsTheBytes : Prop :=
  ∀ (bs rest : List Byte) (i : Instr), decode bs = .ok i rest → bs = encode i ++ rest

/-- Every instruction's bytes, by the patterns of 30_encoding R95 and the layouts of R94: the field codes are r3 (B C
D E H L (HL) A = 0 to 7), pp (BC DE HL SP), qq (BC DE HL AF) and cc (NZ Z NC C); a 16-bit immediate is low byte
first (the spec's decisions D2, D8; log entries 8 and 9). -/
def Obligations.EncodingFollowsThePatterns : Prop :=
  ∀ i : Instr, encode i =
    match i.form with
    | .ldPair p v => [BitVec.ofNat 8 (0b00000001 + 16 * p.code.toNat), lowOf v, highOf v]
    | .ldImm x v => [BitVec.ofNat 8 (0b00000110 + 8 * x.code.toNat), v]
    | .ld x r => [BitVec.ofNat 8 (0b01000000 + 8 * x.code.toNat + r.code.toNat)]
    | .inc x => [BitVec.ofNat 8 (0b00000100 + 8 * x.code.toNat)]
    | .dec x => [BitVec.ofNat 8 (0b00000101 + 8 * x.code.toNat)]
    | .incPair p => [BitVec.ofNat 8 (0b00000011 + 16 * p.code.toNat)]
    | .decPair p => [BitVec.ofNat 8 (0b00001011 + 16 * p.code.toNat)]
    | .alu .add (.slot r) => [BitVec.ofNat 8 (0b10000000 + r.code.toNat)]
    | .alu .sub (.slot r) => [BitVec.ofNat 8 (0b10010000 + r.code.toNat)]
    | .alu .xor (.slot r) => [BitVec.ofNat 8 (0b10101000 + r.code.toNat)]
    | .alu .cp (.slot r) => [BitVec.ofNat 8 (0b10111000 + r.code.toNat)]
    | .alu .add (.imm v) => [0xC6, v]
    | .alu .sub (.imm v) => [0xD6, v]
    | .alu .xor (.imm _) => [] -- no instruction has this form
    | .alu .cp (.imm v) => [0xFE, v]
    | .push q => [BitVec.ofNat 8 (0b11000101 + 16 * q.code.toNat)]
    | .pop q => [BitVec.ofNat 8 (0b11000001 + 16 * q.code.toNat)]
    | .jr e => [0x18, e]
    | .jrCond cc e => [BitVec.ofNat 8 (0b00100000 + 8 * cc.code.toNat), e]
    | .call t => [0xCD, lowOf t, highOf t]
    | .ret => [0xC9]
    | .storeHigh o => [0xE0, o]
    | .loadHigh o => [0xF0, o]
    | .storeHighC => [0xE2]
    | .loadHighC => [0xF2]
    | .storeAbs t => [0xEA, lowOf t, highOf t]
    | .loadAbs t => [0xFA, lowOf t, highOf t]
    | .rla => [0x17]
    | .rl r => [0xCB, BitVec.ofNat 8 (0b00010000 + r.code.toNat)]
    | .bit7 r => [0xCB, BitVec.ofNat 8 (0b01111000 + r.code.toNat)]

/-- Every admitted form is some instruction's, with its bytes; the forms 30_encoding R95 leaves out are refused by
their opcode byte. Which members are admitted: log entry 8. -/
def Obligations.AdmittedFormsAreTheInstructions : Prop :=
  (∀ fm : Form, fm.wellFormed = true → ∃ i : Instr, i.form = fm ∧ encode i = fm.encode) ∧
  (∀ (fm : Form) (rest : List Byte), fm.wellFormed = false →
    ∃ op tail, fm.encode = op :: tail ∧ decode (fm.encode ++ rest) = .unlisted .primary op)

/-- The bytes the decoder refuses are exactly those no pattern of 30_encoding R95 admits: 101 primary and 240 extended
ones (R97). Log entry 8. -/
def Obligations.DecoderRefusesExactlyTheUnlistedBytes : Prop :=
  (∀ (b : Byte) (rest : List Byte), decode (b :: rest) = .unlisted .primary b ↔ NotAdmitted .primary b) ∧
  (∀ (b : Byte) (rest : List Byte), decode (0xCB#8 :: b :: rest) = .unlisted .extended b ↔ NotAdmitted .extended b) ∧
  ((List.range 256).filter fun n => !primaryAdmitted (BitVec.ofNat 8 n) && n != 0xCB).length = 101 ∧
  ((List.range 256).filter fun n => !extendedAdmitted (BitVec.ofNat 8 n)).length = 240

/-! ### The step -/

/-- A step runs the instruction its fetch decodes, from the state the fetch leaves. -/
def Obligations.StepRunsTheDecodedInstruction : Prop :=
  ∀ (s s1 : State) (i : Instr), s.fault = none → fetchInstr s = .ok i s1 → step s = exec i s1

/-- A step at an instruction's bytes runs it with PC after its last byte and nothing else changed. A fetch reads
through the router (log entry 11). -/
def Obligations.StepRunsTheCodeAtPC : Prop :=
  ∀ (s : State) (i : Instr), s.fault = none → CodeAt s s.pc (encode i) →
    step s = exec i { s with pc := s.pc + BitVec.ofNat 16 (encode i).length }

/-- A byte of an instruction that lies in the unmodeled band makes its fetch fatal there, the earlier bytes fetched
(30_encoding R91, 60_exceptions R243, R247). Log entries 11 and 16. -/
def Obligations.FetchFromTheBandIsFatal : Prop :=
  ∀ (s : State) (i : Instr) (k : Nat), s.fault = none → k < (encode i).length → CodeAt s s.pc ((encode i).take k) →
    readable (s.pc + BitVec.ofNat 16 k) = false →
    step s = illegal (s.pc + BitVec.ofNat 16 k) .read { s with pc := s.pc + BitVec.ofNat 16 k }

/-- An opcode with no entry, primary or extended, ends the run and reports its table, its byte and the byte's address.
What the record holds: log entry 16. -/
def Obligations.UnlistedOpcodeIsFatal : Prop :=
  (∀ (s : State) (b : Byte), s.fault = none → readable s.pc = true → readValue s s.pc = b → NotAdmitted .primary b →
    step s = .fault (.unimplementedOpcode .primary b s.pc
      { afterRead s s.pc with pc := s.pc + 1, fault := some (.unimplementedOpcode .primary b s.pc) })) ∧
  (∀ (s : State) (b : Byte), s.fault = none → CodeAt s s.pc [0xCB] → readable (s.pc + 1) = true →
    readValue s (s.pc + 1) = b → NotAdmitted .extended b →
    step s = .fault (.unimplementedOpcode .extended b (s.pc + 1)
      { afterRead s (s.pc + 1) with
        pc := s.pc + 2, fault := some (.unimplementedOpcode .extended b (s.pc + 1)) }))

/-- A state with a recorded fault has no further step; a step that faults records the condition it reports in the
state it leaves, and that state then answers the same fault for ever. How a faulted state is held: log entry 5. -/
def Obligations.FaultIsRecordedAndTerminal : Prop :=
  (∀ (s : State) (c : FatalCondition), s.fault = some c → step s = .fault (faultOf c s)) ∧
  (∀ (s : State) (r : Fault), s.fault = none → step s = .fault r →
    ∃ fin, finalState r = some fin ∧ fin.fault = some (conditionOf r) ∧ step fin = .fault r)

/-- No step is refused: every instruction has its meaning. -/
def Obligations.NoStepIsRefused : Prop :=
  ∀ (s : State) (x : Refusal), step s ≠ .refused x

/-! ### Registers and memory -/

/-- A pair reads as its two registers, the first-named one high; its write splits the value over them and changes
nothing else; AF's low nibble is masked to 0. -/
def Obligations.PairsComposeAndSplit : Prop :=
  ∀ (s : State) (p : Pair) (v : Word),
    s.getPair p = wordOf (pairHi p s) (pairLo p s) ∧ s.setPair p v = withPair p (highOf v) (lowOf v) s

/-- The router's read at every address: the overlay, the array, the scanline constant, a draw, or fatal. The draw: log
entry 4; the two tiers: log entry 21. -/
def Obligations.RouterRead : Prop :=
  ∀ (s : State) (a : Word),
    (a.toNat < 0x100 → s.bootRomEnabled = true → memRead a s = .ok (bootByte s a) s) ∧
    (a.toNat < 0x100 → s.bootRomEnabled = false → memRead a s = .ok (s.mem.read a.toNat) s) ∧
    ((0x100 ≤ a.toNat ∧ a.toNat < 0xFF00) ∨ 0xFF80 ≤ a.toNat → memRead a s = .ok (s.mem.read a.toNat) s) ∧
    (a.toNat = 0xFF42 ∨ a.toNat = 0xFF43 ∨ a.toNat = 0xFF50 → memRead a s = .ok (s.mem.read a.toNat) s) ∧
    (a.toNat = 0xFF44 → memRead a s = .ok 144 s) ∧
    (stubAddr a = true → memRead a s = .ok (Config.stubRead s.draws) { s with draws := s.draws + 1 }) ∧
    (unmodeledAddr a = true → (memRead a s).done = illegal a .read s)

/-- The router's write at every address: stored, stored with the latch's effect, or fatal. The scroll registers and
the zero write: log entry 14. -/
def Obligations.RouterWrite : Prop :=
  ∀ (s : State) (a : Word) (v : Byte),
    (a.toNat < 0x100 → s.bootRomEnabled = true → (memWrite a v s).done = illegal a .write s) ∧
    (a.toNat < 0x100 → s.bootRomEnabled = false →
      memWrite a v s = .ok () { s with mem := s.mem.write a.toNat v }) ∧
    ((0x100 ≤ a.toNat ∧ a.toNat < 0xFF00) ∨ 0xFF80 ≤ a.toNat ∨ a.toNat = 0xFF42 ∨ a.toNat = 0xFF43 ∨
        stubAddr a = true → memWrite a v s = .ok () { s with mem := s.mem.write a.toNat v }) ∧
    (a.toNat = 0xFF50 → v ≠ 0 →
      memWrite a v s = .ok () { s with mem := s.mem.write a.toNat v, bootRomEnabled := false }) ∧
    (a.toNat = 0xFF50 → v = 0 → memWrite a v s = .ok () { s with mem := s.mem.write a.toNat v }) ∧
    (a.toNat = 0xFF44 → (memWrite a v s).done = illegal a .write s) ∧
    (unmodeledAddr a = true → (memWrite a v s).done = illegal a .write s)

/-- A write stores its byte at its address and leaves every other byte of the array alone; where reads pass through, a
later read or fetch of the address gives the byte. Fetch coherence: log entry 11. -/
def Obligations.StoredByteIsReadBack : Prop :=
  ∀ (s t : State) (a : Word) (v : Byte), memWrite a v s = .ok () t →
    (∀ x : Nat, t.mem.read x = if x = a.toNat then v else s.mem.read x) ∧
    (stubAddr a = false → memRead a t = .ok v t ∧ fetch8 { t with pc := a } = .ok v { t with pc := a + 1 })

/-- A write keeps the memory's canonical form. -/
def Obligations.WritesKeepMemoryCanonical : Prop :=
  ∀ (s t : State) (a : Word) (v : Byte), s.mem.wf = true → memWrite a v s = .ok () t → t.mem.wf = true

/-! ### Reset -/

/-- Right after reset: registers, PC, SP and flags 0, the overlay enabled with 0x31 its first byte, 0x8000-0xFFFF
zero, no fault (10_state R35). PC and SP: log entry 17. -/
def Obligations.ResetState : Prop :=
  (∀ r : Reg8, State.reset.getReg r = 0) ∧ State.reset.pc = 0 ∧ State.reset.sp = 0 ∧
  State.reset.bootRomEnabled = true ∧ State.reset.fault = none ∧ memRead 0 State.reset = .ok 0x31 State.reset ∧
  (∀ a : Nat, 0x8000 ≤ a → State.reset.mem.read a = 0)

/-- The reset sequence, for every boot image (256 bytes, the first 0x31) and every cartridge image of its size: each
address of the overlay reads its image byte. Log entries 2, 17 and 21. -/
def Obligations.ResetLoadsTheImages : Prop :=
  ∀ (boot : BootImage) (cart : List Byte), cart.length = 32768 →
    (∀ r : Reg8, (resetWith boot cart).getReg r = 0) ∧ (resetWith boot cart).pc = 0 ∧ (resetWith boot cart).sp = 0 ∧
    (resetWith boot cart).bootRomEnabled = true ∧ (resetWith boot cart).fault = none ∧
    (∀ (a : Nat) (v : Byte), cart[a]? = some v → (resetWith boot cart).mem.read a = v) ∧
    (∀ a : Nat, 0x8000 ≤ a → (resetWith boot cart).mem.read a = 0) ∧
    (∀ a : Word, a.toNat < 0x100 → ∃ v, boot.bytes[a.toNat]? = some v ∧
      memRead a (resetWith boot cart) = .ok v (resetWith boot cart)) ∧
    memRead 0 (resetWith boot cart) = .ok 0x31 (resetWith boot cart)

/-- The session starts exactly when 32,768 bytes of cartridge image were read; otherwise StartupIO, before any step;
no instruction raises it (60_exceptions R245). -/
def Obligations.ShortCartridgeIsStartupIO : Prop :=
  (∀ boot : BootImage,
    startup boot none = .fault .startupIO ∧
    (∀ cart : List Byte, cart.length ≠ 32768 → startup boot (some cart) = .fault .startupIO) ∧
    (∀ cart : List Byte, cart.length = 32768 → startup boot (some cart) = .next (resetWith boot cart))) ∧
  (∀ (i : Instr) (s : State), exec i s ≠ .fault .startupIO)

/-- The first step of every session runs the boot image's LD SP,d16 from address 0. Byte values: log entry 8; byte
order: 9. -/
def Obligations.FirstStepLoadsSP : Prop :=
  ∀ (boot : BootImage) (cart : List Byte) (lo hi : Byte), boot.bytes[1]? = some lo → boot.bytes[2]? = some hi →
    step (resetWith boot cart) = .next { resetWith boot cart with sp := wordOf hi lo, pc := 3 }

/-! ### Loads and moves -/

/-- LD rr,d16 and LD SP,d16. Bytes and their order: log entries 8 and 9. -/
def Obligations.LoadPairImmediate : Prop :=
  ∀ (i : Instr) (s : State) (v : Word),
    (i.form = .ldPair .bc v → encode i = [0x01, lowOf v, highOf v] ∧
      exec i s = .next { s with b := highOf v, c := lowOf v }) ∧
    (i.form = .ldPair .de v → encode i = [0x11, lowOf v, highOf v] ∧
      exec i s = .next { s with d := highOf v, e := lowOf v }) ∧
    (i.form = .ldPair .hl v → encode i = [0x21, lowOf v, highOf v] ∧
      exec i s = .next { s with h := highOf v, l := lowOf v }) ∧
    (i.form = .ldPair .sp v → encode i = [0x31, lowOf v, highOf v] ∧ exec i s = .next { s with sp := v })

/-- LD r,d8 for B, C, D, E, H, L, A. Bytes: log entry 8. -/
def Obligations.LoadByteImmediate : Prop :=
  ∀ (i : Instr) (s : State) (x : Slot) (v : Byte), i.form = .ldImm x v →
    x ≠ .atHL ∧ encode i = [0b00000110#8 + x.code * 8, v] ∧ exec i s = .next (afterSlotWrite x v s)

/-- The whole move block 0x40-0x7F: the 49 register moves, LD r,(HL), LD (HL),r and LD (HL),(HL). The field layout and
0x76: log entry 8. -/
def Obligations.MoveBlock : Prop :=
  ∀ (i : Instr) (s : State) (x y : Slot), i.form = .ld x y →
    encode i = [0b01000000#8 + x.code * 8 + y.code] ∧
    (slotReadable y s = true → slotWritable x s = true →
      exec i s = .next (afterSlotWrite x (slotValue y s) (afterSlotRead y s))) ∧
    (slotReadable y s = false → exec i s = illegal (hlAddr s) .read s) ∧
    (slotReadable y s = true → slotWritable x s = false →
      exec i s = illegal (hlAddr s) .write (afterSlotRead y s))

/-! ### Increment and decrement -/

/-- INC r and INC (HL): the value plus one, Z, N = 0, H on a low nibble of 15, C kept. C: log entry 12; the access
order: 16; bytes: 8. -/
def Obligations.IncrementByte : Prop :=
  ∀ (i : Instr) (s : State) (x : Slot), i.form = .inc x →
    encode i = [0b00000100#8 + x.code * 8] ∧
    (flagsOk s → slotReadable x s = true → slotWritable x s = true →
      exec i s = .next
        { afterSlotWrite x (slotValue x s + 1) (afterSlotRead x s) with
          f := flagByte (slotValue x s == 255) false ((slotValue x s).toNat % 16 == 15) (carry s) }) ∧
    (slotReadable x s = false → exec i s = illegal (hlAddr s) .read s) ∧
    (flagsOk s → slotReadable x s = true → slotWritable x s = false →
      exec i s = illegal (hlAddr s) .write (afterSlotRead x s))

/-- DEC r and DEC (HL): the value minus one, Z, N = 1, H on a low nibble of 0, C kept. C: log entry 12; the access
order: 16; bytes: 8. -/
def Obligations.DecrementByte : Prop :=
  ∀ (i : Instr) (s : State) (x : Slot), i.form = .dec x →
    encode i = [0b00000101#8 + x.code * 8] ∧
    (flagsOk s → slotReadable x s = true → slotWritable x s = true →
      exec i s = .next
        { afterSlotWrite x (slotValue x s - 1) (afterSlotRead x s) with
          f := flagByte (slotValue x s == 1) true ((slotValue x s).toNat % 16 == 0) (carry s) }) ∧
    (slotReadable x s = false → exec i s = illegal (hlAddr s) .read s) ∧
    (flagsOk s → slotReadable x s = true → slotWritable x s = false →
      exec i s = illegal (hlAddr s) .write (afterSlotRead x s))

/-- INC rr and DEC rr on BC, DE, HL: modulo 2^16, the carry passing between the halves, no flag. Log entries 8, 10 and
12. -/
def Obligations.PairIncrementAndDecrement : Prop :=
  ∀ (i : Instr) (s : State) (p : Pair) (q : PairSP),
    (p = .bc ∧ q = .bc ∨ p = .de ∧ q = .de ∨ p = .hl ∧ q = .hl) →
    (i.form = .incPair q → encode i = [0b00000011#8 + q.code * 16] ∧
      exec i s = .next (withPair p (highOf (wordOf (pairHi p s) (pairLo p s) + 1))
        (lowOf (wordOf (pairHi p s) (pairLo p s) + 1)) s)) ∧
    (i.form = .decPair q → encode i = [0b00001011#8 + q.code * 16] ∧
      exec i s = .next (withPair p (highOf (wordOf (pairHi p s) (pairLo p s) - 1))
        (lowOf (wordOf (pairHi p s) (pairLo p s) - 1)) s))

/-- A register incremented and then decremented has its value back; Z says whether it is 0, N is 1, H says whether the
low nibble came back from 0, C is kept (40_microops R129, 90_conflicts C2). C: log entry 12. -/
def Obligations.IncrementThenDecrement : Prop :=
  ∀ (i j : Instr) (s : State) (x : Slot), i.form = .inc x → j.form = .dec x → x ≠ .atHL → flagsOk s →
    ∃ t, exec i s = .next t ∧
      exec j t = .next { s with
        f := flagByte (slotValue x s == 0) true ((slotValue x s + 1).toNat % 16 == 0) (carry s) }

/-! ### Accumulator operations -/

/-- ADD A,r, ADD A,(HL) and ADD A,d8: the sum without a carry in, Z, N = 0, and both carries exactly (40_microops
R123). -/
def Obligations.AddToA : Prop :=
  ∀ (i : Instr) (s : State) (src : AluSrc), i.form = .alu .add src →
    (flagsOk s → srcReadable src s = true →
      exec i s = .next { afterSrcRead src s with
        a := BitVec.ofNat 8 (s.a.toNat + (srcValue src s).toNat)
        f := flagByte ((s.a.toNat + (srcValue src s).toNat) % 256 == 0) false
          (decide (s.a.toNat % 16 + (srcValue src s).toNat % 16 > 15))
          (decide (s.a.toNat + (srcValue src s).toNat > 255)) }) ∧
    (srcReadable src s = false → exec i s = illegal (hlAddr s) .read s)

/-- SUB r, SUB (HL) and SUB d8. Bytes: log entry 8. -/
def Obligations.SubtractFromA : Prop :=
  ∀ (i : Instr) (s : State) (src : AluSrc), i.form = .alu .sub src →
    (∀ r, src = .slot r → encode i = [0b10010000#8 + r.code]) ∧ (∀ v, src = .imm v → encode i = [0xD6, v]) ∧
    (flagsOk s → srcReadable src s = true →
      exec i s = .next { afterSrcRead src s with
        a := BitVec.ofInt 8 ((s.a.toNat : Int) - (srcValue src s).toNat)
        f := flagByte (s.a == srcValue src s) true (decide ((srcValue src s).toNat % 16 > s.a.toNat % 16))
          (decide ((srcValue src s).toNat > s.a.toNat)) }) ∧
    (srcReadable src s = false → exec i s = illegal (hlAddr s) .read s)

/-- CP r, CP (HL) and CP d8: the flags of the subtraction, and A unchanged. CP is admitted by log entry 8. -/
def Obligations.CompareWithA : Prop :=
  ∀ (i : Instr) (s : State) (src : AluSrc), i.form = .alu .cp src →
    (∀ r, src = .slot r → encode i = [0b10111000#8 + r.code]) ∧ (∀ v, src = .imm v → encode i = [0xFE, v]) ∧
    (flagsOk s → srcReadable src s = true →
      exec i s = .next { afterSrcRead src s with
        f := flagByte (s.a == srcValue src s) true (decide ((srcValue src s).toNat % 16 > s.a.toNat % 16))
          (decide ((srcValue src s).toNat > s.a.toNat)) }) ∧
    (srcReadable src s = false → exec i s = illegal (hlAddr s) .read s)

/-- XOR r and XOR (HL): A takes the exclusive-or, Z says whether it is 0, N, H and C are cleared (40_microops R125).
-/
def Obligations.ExclusiveOrWithA : Prop :=
  ∀ (i : Instr) (s : State) (src : AluSrc), i.form = .alu .xor src →
    (flagsOk s → srcReadable src s = true →
      exec i s = .next { afterSrcRead src s with
        a := s.a ^^^ srcValue src s
        f := if s.a = srcValue src s then 0x80 else 0x00 }) ∧
    (srcReadable src s = false → exec i s = illegal (hlAddr s) .read s)

/-! ### Stack -/

/-- PUSH qq, in the source's polarity: low byte at SP, high byte at SP+1, then SP down by two; its two write faults.
The order and what a fault leaves: log entry 16; bytes: 8. -/
def Obligations.PushPair : Prop :=
  ∀ (i : Instr) (s : State) (q : Pair), i.form = .push q →
    encode i = [0b11000101#8 + q.code * 16] ∧ PushesThen (exec i s) (pairHi q s) (pairLo q s) s id

/-- POP rr and POP AF: SP up by two, low byte at the new SP, high byte at SP+1; AF's low nibble is masked; its two
read faults. Log entries 8 and 16. -/
def Obligations.PopPair : Prop :=
  ∀ (i : Instr) (s : State) (q : Pair), i.form = .pop q →
    encode i = [0b11000001#8 + q.code * 16] ∧ PopsThen (exec i s) s (withPair q)

/-- A push followed by a pop of the same pair gives the pair back and leaves SP where it was, when both stack bytes
are plain memory (or the boot area with the overlay off). Wrap: log entry 10. -/
def Obligations.PushThenPopRestores : Prop :=
  ∀ (i j : Instr) (s : State) (q : Pair), i.form = .push q → j.form = .pop q → (q = .af → flagsOk s) →
    region s.sp = .plain ∨ region s.sp = .bootArea ∧ s.bootRomEnabled = false →
    region (s.sp + 1) = .plain ∨ region (s.sp + 1) = .bootArea ∧ s.bootRomEnabled = false →
    ∃ t, exec i s = .next t ∧ exec j t = .next { s with mem := t.mem }

/-! ### Jumps, call and return -/

/-- JR e8: the address after the instruction plus the signed displacement, modulo 2^16. Wrap: log entry 10. -/
def Obligations.JumpRelative : Prop :=
  ∀ (i : Instr) (s : State) (e : Byte), i.form = .jr e →
    encode i = [0x18, e] ∧ exec i s = .next { s with pc := BitVec.ofInt 16 (s.pc.toNat + e.toInt) }

/-- JR cc,e8: as JR when Z or C is as the condition says, else on to the next instruction. Conditions: log entry 8. -/
def Obligations.JumpOnCondition : Prop :=
  ∀ (i : Instr) (s : State) (cc : Cond) (e : Byte), i.form = .jrCond cc e →
    encode i = [0b00100000#8 + cc.code * 8, e] ∧
    (flagsOk s →
      (cc = .nz ∧ zero s = false ∨ cc = .z ∧ zero s = true ∨ cc = .nc ∧ carry s = false ∨ cc = .c ∧ carry s = true →
        exec i s = .next { s with pc := BitVec.ofInt 16 (s.pc.toNat + e.toInt) }) ∧
      (cc = .nz ∧ zero s = true ∨ cc = .z ∧ zero s = false ∨ cc = .nc ∧ carry s = true ∨ cc = .c ∧ carry s = false →
        exec i s = .next s))

/-- CALL a16: push the address after the instruction, then go to the target; the push's faults leave PC there. The
return address: log entry 15. -/
def Obligations.CallPushesReturnAddress : Prop :=
  ∀ (i : Instr) (s : State) (t : Word), i.form = .call t →
    encode i = [0xCD, lowOf t, highOf t] ∧
    PushesThen (exec i s) (highOf s.pc) (lowOf s.pc) s (fun u => { u with pc := t })

/-- RET: pop into PC; the pop's faults leave PC there. Bytes: log entry 8; what a fault leaves: 16. -/
def Obligations.ReturnPopsPC : Prop :=
  ∀ (i : Instr) (s : State), i.form = .ret →
    encode i = [0xC9] ∧ PopsThen (exec i s) s (fun hi lo u => { u with pc := wordOf hi lo })

/-- A CALL and then a RET come back to the address after the CALL with SP as it was, when both stack bytes are plain
memory. -/
def Obligations.CallThenReturnComesBack : Prop :=
  ∀ (i j : Instr) (s : State) (a : Word), i.form = .call a → j.form = .ret → region s.sp = .plain →
    region (s.sp + 1) = .plain →
    ∃ t, exec i s = .next t ∧ t.pc = a ∧ exec j t = .next { s with mem := t.mem }

/-! ### Accumulator loads and stores -/

/-- LDH (a8),A, LD (C),A and LD (a16),A: the router's write of A at the form's address. Bytes: log entry 8. -/
def Obligations.StoreAccumulator : Prop :=
  ∀ (i : Instr) (s : State) (a : Word),
    (∃ o : Byte, i.form = .storeHigh o ∧ a = BitVec.ofNat 16 (0xFF00 + o.toNat) ∧ encode i = [0xE0, o]) ∨
      (i.form = .storeHighC ∧ a = BitVec.ofNat 16 (0xFF00 + s.c.toNat) ∧ encode i = [0xE2]) ∨
      (i.form = .storeAbs a ∧ encode i = [0xEA, lowOf a, highOf a]) →
    (writable s a = true → exec i s = .next (afterWrite s a s.a)) ∧
    (writable s a = false → exec i s = illegal a .write s)

/-- LDH A,(a8), LD A,(C) and LD A,(a16): A takes the router's read at the form's address. Bytes: log entry 8. -/
def Obligations.LoadAccumulator : Prop :=
  ∀ (i : Instr) (s : State) (a : Word),
    (∃ o : Byte, i.form = .loadHigh o ∧ a = BitVec.ofNat 16 (0xFF00 + o.toNat) ∧ encode i = [0xF0, o]) ∨
      (i.form = .loadHighC ∧ a = BitVec.ofNat 16 (0xFF00 + s.c.toNat) ∧ encode i = [0xF2]) ∨
      (i.form = .loadAbs a ∧ encode i = [0xFA, lowOf a, highOf a]) →
    (readable a = true → exec i s = .next { afterRead s a with a := readValue s a }) ∧
    (readable a = false → exec i s = illegal a .read s)

/-! ### Rotate and bit test -/

/-- RLA: A doubled with the old carry in bit 0, C the old bit 7, Z, N and H always 0 (40_microops R127). -/
def Obligations.RotateAccumulatorLeft : Prop :=
  ∀ (i : Instr) (s : State), i.form = .rla →
    flagsOk s → exec i s = .next { s with
      a := BitVec.ofNat 8 (2 * s.a.toNat + if carry s then 1 else 0)
      f := flagByte false false false (decide (128 ≤ s.a.toNat)) }

/-- RL r and RL (HL): the slot doubled with the old carry in bit 0, C the old bit 7, Z by the result. The access
order: log entry 16; bytes: 8. -/
def Obligations.RotateSlotLeft : Prop :=
  ∀ (i : Instr) (s : State) (x : Slot) (r : Byte), i.form = .rl x →
    r = BitVec.ofNat 8 (2 * (slotValue x s).toNat + if carry s then 1 else 0) →
    encode i = [0xCB, 0b00010000#8 + x.code] ∧
    (flagsOk s → slotReadable x s = true → slotWritable x s = true →
      exec i s = .next { afterSlotWrite x r (afterSlotRead x s) with
        f := flagByte (r == 0) false false (decide (128 ≤ (slotValue x s).toNat)) }) ∧
    (slotReadable x s = false → exec i s = illegal (hlAddr s) .read s) ∧
    (flagsOk s → slotReadable x s = true → slotWritable x s = false →
      exec i s = illegal (hlAddr s) .write (afterSlotRead x s))

/-- BIT 7,r and BIT 7,(HL): Z says whether bit 7 of register H is 0, whatever the operand; N = 0, H = 1, C kept. The
operand is read all the same: log entry 13. -/
def Obligations.BitTestInspectsH : Prop :=
  ∀ (i : Instr) (s : State) (x : Slot), i.form = .bit7 x →
    encode i = [0xCB, 0b01111000#8 + x.code] ∧
    (flagsOk s → slotReadable x s = true →
      exec i s = .next { afterSlotRead x s with
        f := flagByte (decide (s.h.toNat < 128)) false true (carry s) }) ∧
    (slotReadable x s = false → exec i s = illegal (hlAddr s) .read s)

/-- A flag accessor that finds F's low nibble nonzero raises InvariantViolation: every instruction that runs one, once
its operand is read, with memory and F unchanged. The point of the check: log entry 6. -/
def Obligations.FlagAccessorChecksF : Prop :=
  ∀ (i : Instr) (s : State) (src : AluSrc), flagOperand i.form = some src → srcReadable src s = true → ¬flagsOk s →
    ∃ t, exec i s = .fault (.invariantViolation t) ∧ t.fault = some .invariantViolation ∧ t.f = s.f ∧ t.mem = s.mem

/-! ### Frames -/

/-- Every register but F is unchanged except those the access table gives the instruction. -/
def Obligations.RegisterFrame : Prop :=
  ∀ (i : Instr) (s t : State), exec i s = .next t →
    ∀ r : Reg8, r ≠ .f → r ∉ writtenRegs i.form → t.getReg r = s.getReg r

/-- Every bit of F is unchanged except the flags the flag table gives the instruction. What INC and DEC leave alone:
log entry 12. -/
def Obligations.FlagFrame : Prop :=
  ∀ (i : Instr) (s t : State), exec i s = .next t →
    ∀ k : Nat, k < 8 → k ∉ writtenFlags i.form → t.f.getLsbD k = s.f.getLsbD k

/-- Every byte of memory is unchanged except at the addresses the instruction stores to. -/
def Obligations.MemoryFrame : Prop :=
  ∀ (i : Instr) (s t : State), exec i s = .next t →
    ∀ x : Nat, (∀ a ∈ storeAddrs i.form s, x ≠ a.toNat) → t.mem.read x = s.mem.read x

/-- SP is what the form leaves in it; PC is unchanged after the fetch unless the form transfers control; the overlay
enable is unchanged unless 0xFF50 is stored to; the boot image and the fault record never change. -/
def Obligations.ControlFrame : Prop :=
  ∀ (i : Instr) (s t : State), exec i s = .next t →
    t.sp = spAfter i.form s.sp ∧ (transfersControl i.form = false → t.pc = s.pc) ∧
    ((∀ a ∈ storeAddrs i.form s, a.toNat ≠ 0xFF50) → t.bootRomEnabled = s.bootRomEnabled) ∧
    t.bootImage = s.bootImage ∧ t.fault = s.fault

/-! ### The whole machine -/

/-- The invariant holds at reset. -/
def Obligations.InvAtReset : Prop := Inv State.reset

/-- The invariant holds at every session's start, whatever the images. -/
def Obligations.InvAtEverySessionStart : Prop :=
  ∀ (boot : BootImage) (cart : List Byte), cart.length = 32768 → Inv (resetWith boot cart)

/-- Every step keeps the invariant. -/
def Obligations.StepKeepsInv : Prop :=
  ∀ s t : State, Inv s → step s = .next t → Inv t

/-- From every state of the invariant, a step that faults reports one of two things: an opcode byte no table admits,
or an access of exactly the three illegal kinds. -/
def Obligations.OnlyTheListedFaults : Prop :=
  ∀ (s : State) (r : Fault), Inv s → step s = .fault r →
    (∃ t b a fin, r = .unimplementedOpcode t b a fin ∧ NotAdmitted t b) ∨
    (∃ a k fin, r = .illegalMemoryAccess a k fin ∧
      (unmodeledAddr a = true ∨ k = .write ∧ (a.toNat = 0xFF44 ∨ a.toNat < 0x100 ∧ s.bootRomEnabled = true)))

/-- In every run from every session's start, whatever the images, no flag accessor ever finds F's low nibble nonzero.
-/
def Obligations.NoRunViolatesTheFlagInvariant : Prop :=
  ∀ (boot : BootImage) (cart : List Byte) (n : Nat) (r : Fault), cart.length = 32768 →
    Sys2Proof.core.run n (resetWith boot cart) = .fault r → conditionOf r ≠ .invariantViolation

/-- Once the overlay is off it stays off, along every run from every state. -/
def Obligations.OverlayNeverComesBack : Prop :=
  ∀ (s t : State) (n : Nat), s.bootRomEnabled = false → Sys2Proof.core.run n s = .next t → t.bootRomEnabled = false

/-- A step that turns the overlay off has stored a nonzero byte in the latch. -/
def Obligations.OnlyTheLatchDisablesTheOverlay : Prop :=
  ∀ s t : State, step s = .next t → s.bootRomEnabled = true → t.bootRomEnabled = false → t.mem.read 0xFF50 ≠ 0

/-- While the overlay is on, no step changes the cartridge bytes behind it. -/
def Obligations.OverlayProtectsTheBytesBehindIt : Prop :=
  ∀ (s t : State) (x : Nat), s.bootRomEnabled = true → step s = .next t → x < 0x100 → t.mem.read x = s.mem.read x

/-- The bytes stored behind the stub registers, the scanline register and the unmodeled band are never read back: two
states that differ only there step alike. -/
def Obligations.HiddenBytesAreNeverReadBack : Prop :=
  ∀ s t : State, SameButHidden s t →
    (∀ s', step s = .next s' → ∃ t', step t = .next t' ∧ SameButHidden s' t') ∧
    (∀ r, step s = .fault r → ∃ r', step t = .fault r' ∧ conditionOf r' = conditionOf r)

/-! ### The host's view -/

/-- The dump's flag string: one letter per set flag in the order Z, N, H, C and a dash for each clear one. -/
def Obligations.DumpFlagString : Prop :=
  ∀ s : State, flagString s =
    [if 128 ≤ s.f.toNat then 'Z' else '-', if 64 ≤ s.f.toNat % 128 then 'N' else '-',
      if 32 ≤ s.f.toNat % 64 then 'H' else '-', if 16 ≤ s.f.toNat % 32 then 'C' else '-']
end

