-- ==== Sys2Proof/Laws/Memory.lean ====
section
/-! SUPPORT. The byte array: read after write, the frame of a write, and the canonical form. -/

namespace Sys2Proof.Machine

@[simp] theorem read_nil (addr : Nat) : Memory.read [] addr = unlistedByte addr := rfl

theorem read_cons (k : Nat) (w : Byte) (m : Memory) (addr : Nat) :
    Memory.read ((k, w) :: m) addr = if k = addr then w else m.read addr := rfl

theorem read_put (m : Memory) (addr x : Nat) (v : Byte) :
    (m.put addr v).read x = if x = addr then v else m.read x := by
  induction m with
  | nil => simp [Memory.put, read_cons, eq_comm (a := addr)]
  | cons cell m ih =>
    obtain ⟨k, w⟩ := cell
    by_cases hk : addr < k
    · simp [Memory.put, hk, read_cons, eq_comm (a := addr)]
    by_cases he : addr = k
    · subst he; by_cases hx : addr = x <;> simp [Memory.put, read_cons, hx, eq_comm (a := x)]
    · by_cases hx : k = x
      · subst hx; simp [Memory.put, hk, he, read_cons, Ne.symm he]
      · simp [Memory.put, hk, he, read_cons, hx, ih]

theorem read_drop (m : Memory) (addr x : Nat) :
    (m.drop addr).read x = if x = addr then unlistedByte x else m.read x := by
  induction m with
  | nil => simp [Memory.drop]
  | cons cell m ih =>
    obtain ⟨k, w⟩ := cell
    by_cases he : k = addr
    · subst he
      by_cases hx : k = x
      · subst hx; simpa [Memory.drop] using ih
      · simp [Memory.drop, read_cons, ih, hx, eq_comm (a := x)]
    · by_cases hx : k = x
      · subst hx; simp [Memory.drop, he, read_cons]
      · simp [Memory.drop, he, read_cons, hx, ih]

/-- A read after a write to the same address gives the byte written; a write leaves every other address alone. -/
theorem read_write (m : Memory) (addr x : Nat) (v : Byte) :
    (m.write addr v).read x = if x = addr then v else m.read x := by
  unfold Memory.write
  split
  · rw [read_drop]; split <;> simp_all
  · exact read_put m addr x v

@[simp] theorem read_write_same (m : Memory) (addr : Nat) (v : Byte) : (m.write addr v).read addr = v := by
  simp [read_write]

theorem wfFrom_cons (lo k : Nat) (v : Byte) (m : Memory) :
    Memory.wfFrom lo ((k, v) :: m) = true ↔
      lo ≤ k ∧ k < 65536 ∧ v ≠ unlistedByte k ∧ Memory.wfFrom (k + 1) m = true := by
  simp only [Memory.wfFrom, Bool.and_eq_true, decide_eq_true_eq, and_assoc]

theorem wfFrom_mono {lo lo' : Nat} {m : Memory} (h : Memory.wfFrom lo m = true) (hle : lo' ≤ lo) :
    Memory.wfFrom lo' m = true := by
  cases m with
  | nil => rfl
  | cons cell m =>
    obtain ⟨k, w⟩ := cell
    rw [wfFrom_cons] at h ⊢
    exact ⟨hle.trans h.1, h.2⟩

theorem wfFrom_put {lo addr : Nat} {m : Memory} {v : Byte} (h : Memory.wfFrom lo m = true) (hlo : lo ≤ addr)
    (haddr : addr < 65536) (hv : v ≠ unlistedByte addr) : Memory.wfFrom lo (m.put addr v) = true := by
  induction m generalizing lo with
  | nil => simp [Memory.put, hlo, haddr, hv, Memory.wfFrom]
  | cons cell m ih =>
    obtain ⟨k, w⟩ := cell
    rw [wfFrom_cons] at h
    obtain ⟨h1, h2, h3, h4⟩ := h
    simp only [Memory.put]
    split
    · rw [wfFrom_cons, wfFrom_cons]; exact ⟨hlo, haddr, hv, by omega, h2, h3, h4⟩
    · split
      · subst addr; rw [wfFrom_cons]; exact ⟨hlo, haddr, hv, h4⟩
      · rw [wfFrom_cons]; exact ⟨h1, h2, h3, ih h4 (by omega)⟩

theorem wfFrom_drop {lo addr : Nat} {m : Memory} (h : Memory.wfFrom lo m = true) :
    Memory.wfFrom lo (m.drop addr) = true := by
  induction m generalizing lo with
  | nil => rfl
  | cons cell m ih =>
    obtain ⟨k, w⟩ := cell
    rw [wfFrom_cons] at h
    obtain ⟨h1, h2, h3, h4⟩ := h
    simp only [Memory.drop]
    split
    · exact wfFrom_mono (ih h4) (by omega)
    · rw [wfFrom_cons]; exact ⟨h1, h2, h3, ih h4⟩

/-- A write inside the address space keeps the canonical form. -/
theorem wf_write {m : Memory} {addr : Nat} (v : Byte) (h : m.wf = true) (haddr : addr < 65536) :
    (m.write addr v).wf = true := by
  unfold Memory.write Memory.wf
  split
  · exact wfFrom_drop h
  · next hv => exact wfFrom_put h (Nat.zero_le _) haddr hv

theorem wfFrom_ofImage {base : Nat} {bs : List Byte} (h : base + bs.length ≤ 65536) :
    Memory.wfFrom base (Memory.ofImage base bs) = true := by
  induction bs generalizing base with
  | nil => rfl
  | cons v bs ih =>
    have hlen : base + 1 + bs.length ≤ 65536 := by simp at h; omega
    simp only [Memory.ofImage]
    split
    · exact wfFrom_mono (ih hlen) (by omega)
    · next hv => rw [wfFrom_cons]; exact ⟨le_refl _, by omega, hv, ih hlen⟩

theorem read_ofImage_below {base addr : Nat} {bs : List Byte} (h : addr < base) :
    (Memory.ofImage base bs).read addr = unlistedByte addr := by
  induction bs generalizing base with
  | nil => rfl
  | cons v bs ih =>
    simp only [Memory.ofImage]
    split
    · exact ih (by omega)
    · rw [read_cons, if_neg (by omega)]; exact ih (by omega)

/-- An image's memory reads as the image's bytes, and as the fill beyond them. -/
theorem read_ofImage (base addr : Nat) (bs : List Byte) (h : base ≤ addr) :
    (Memory.ofImage base bs).read addr = (bs[addr - base]?).getD (unlistedByte addr) := by
  induction bs generalizing base with
  | nil => simp [Memory.ofImage]
  | cons v bs ih =>
    simp only [Memory.ofImage]
    by_cases hk : base = addr
    · subst base
      split
      · next hv => rw [read_ofImage_below (by omega)]; simp [hv]
      · simp [read_cons]
    · have hs : addr - base = (addr - (base + 1)) + 1 := by omega
      have := ih (base + 1) (by omega)
      split
      · rw [this, hs]; simp
      · rw [read_cons, if_neg hk, this, hs]; simp

theorem lookup_imageCells (base addr : Nat) (bs : List Byte) (h : base ≤ addr) :
    (imageCells base bs).lookup addr = bs[addr - base]? := by
  induction bs generalizing base with
  | nil => rfl
  | cons v bs ih =>
    simp only [imageCells, List.lookup]
    by_cases hk : addr = base
    · subst base; simp
    · have hs : addr - base = (addr - (base + 1)) + 1 := by omega
      have hb : (addr == base) = false := by simp [hk]
      simp only [hb, ih (base + 1) (by omega), hs, List.getElem?_cons_succ]

/-- A session's overlay is its boot image, byte by byte. -/
theorem bootByte_resetWith {boot : BootImage} {a : Word} {v : Byte} (cart : List Byte)
    (h : boot.bytes[a.toNat]? = some v) : bootByte (resetWith boot cart) a = v := by
  have hl : (resetWith boot cart).bootImage.lookup a.toNat = some v :=
    (lookup_imageCells 0 a.toNat boot.bytes (Nat.zero_le _)).trans h
  simp only [bootByte, hl]

/-- Every address of the overlay has its byte in a boot image. -/
theorem BootImage.getElem?_isSome (boot : BootImage) {k : Nat} (h : k < 256) : ∃ v, boot.bytes[k]? = some v :=
  ⟨_, List.getElem?_eq_getElem (boot.size.symm ▸ h)⟩

end Sys2Proof.Machine
end

