-- ==== Sys2Proof/Laws/State.lean ====
section
/-! SUPPORT. One lemma per field per update of the state, and the register file's own laws. -/

namespace Sys2Proof.Machine

@[simp] theorem setPC_a (s : State) (v : Word) : (s.setPC v).a = s.a := rfl
@[simp] theorem setPC_f (s : State) (v : Word) : (s.setPC v).f = s.f := rfl
@[simp] theorem setPC_b (s : State) (v : Word) : (s.setPC v).b = s.b := rfl
@[simp] theorem setPC_c (s : State) (v : Word) : (s.setPC v).c = s.c := rfl
@[simp] theorem setPC_d (s : State) (v : Word) : (s.setPC v).d = s.d := rfl
@[simp] theorem setPC_e (s : State) (v : Word) : (s.setPC v).e = s.e := rfl
@[simp] theorem setPC_h (s : State) (v : Word) : (s.setPC v).h = s.h := rfl
@[simp] theorem setPC_l (s : State) (v : Word) : (s.setPC v).l = s.l := rfl
@[simp] theorem setPC_pc (s : State) (v : Word) : (s.setPC v).pc = v := rfl
@[simp] theorem setPC_sp (s : State) (v : Word) : (s.setPC v).sp = s.sp := rfl
@[simp] theorem setPC_bootRomEnabled (s : State) (v : Word) : (s.setPC v).bootRomEnabled = s.bootRomEnabled := rfl
@[simp] theorem setPC_mem (s : State) (v : Word) : (s.setPC v).mem = s.mem := rfl
@[simp] theorem setPC_bootImage (s : State) (v : Word) : (s.setPC v).bootImage = s.bootImage := rfl
@[simp] theorem setPC_fault (s : State) (v : Word) : (s.setPC v).fault = s.fault := rfl
@[simp] theorem setPC_draws (s : State) (v : Word) : (s.setPC v).draws = s.draws := rfl

@[simp] theorem setSP_a (s : State) (v : Word) : (s.setSP v).a = s.a := rfl
@[simp] theorem setSP_f (s : State) (v : Word) : (s.setSP v).f = s.f := rfl
@[simp] theorem setSP_b (s : State) (v : Word) : (s.setSP v).b = s.b := rfl
@[simp] theorem setSP_c (s : State) (v : Word) : (s.setSP v).c = s.c := rfl
@[simp] theorem setSP_d (s : State) (v : Word) : (s.setSP v).d = s.d := rfl
@[simp] theorem setSP_e (s : State) (v : Word) : (s.setSP v).e = s.e := rfl
@[simp] theorem setSP_h (s : State) (v : Word) : (s.setSP v).h = s.h := rfl
@[simp] theorem setSP_l (s : State) (v : Word) : (s.setSP v).l = s.l := rfl
@[simp] theorem setSP_pc (s : State) (v : Word) : (s.setSP v).pc = s.pc := rfl
@[simp] theorem setSP_sp (s : State) (v : Word) : (s.setSP v).sp = v := rfl
@[simp] theorem setSP_bootRomEnabled (s : State) (v : Word) : (s.setSP v).bootRomEnabled = s.bootRomEnabled := rfl
@[simp] theorem setSP_mem (s : State) (v : Word) : (s.setSP v).mem = s.mem := rfl
@[simp] theorem setSP_bootImage (s : State) (v : Word) : (s.setSP v).bootImage = s.bootImage := rfl
@[simp] theorem setSP_fault (s : State) (v : Word) : (s.setSP v).fault = s.fault := rfl
@[simp] theorem setSP_draws (s : State) (v : Word) : (s.setSP v).draws = s.draws := rfl

@[simp] theorem store_a (s : State) (addr : Word) (v : Byte) : (s.store addr v).a = s.a := rfl
@[simp] theorem store_f (s : State) (addr : Word) (v : Byte) : (s.store addr v).f = s.f := rfl
@[simp] theorem store_b (s : State) (addr : Word) (v : Byte) : (s.store addr v).b = s.b := rfl
@[simp] theorem store_c (s : State) (addr : Word) (v : Byte) : (s.store addr v).c = s.c := rfl
@[simp] theorem store_d (s : State) (addr : Word) (v : Byte) : (s.store addr v).d = s.d := rfl
@[simp] theorem store_e (s : State) (addr : Word) (v : Byte) : (s.store addr v).e = s.e := rfl
@[simp] theorem store_h (s : State) (addr : Word) (v : Byte) : (s.store addr v).h = s.h := rfl
@[simp] theorem store_l (s : State) (addr : Word) (v : Byte) : (s.store addr v).l = s.l := rfl
@[simp] theorem store_pc (s : State) (addr : Word) (v : Byte) : (s.store addr v).pc = s.pc := rfl
@[simp] theorem store_sp (s : State) (addr : Word) (v : Byte) : (s.store addr v).sp = s.sp := rfl
@[simp] theorem store_bootRomEnabled (s : State) (addr : Word) (v : Byte) : (s.store addr v).bootRomEnabled = s.bootRomEnabled := rfl
@[simp] theorem store_mem (s : State) (addr : Word) (v : Byte) : (s.store addr v).mem = s.mem.write addr.toNat v := rfl
@[simp] theorem store_bootImage (s : State) (addr : Word) (v : Byte) : (s.store addr v).bootImage = s.bootImage := rfl
@[simp] theorem store_fault (s : State) (addr : Word) (v : Byte) : (s.store addr v).fault = s.fault := rfl
@[simp] theorem store_draws (s : State) (addr : Word) (v : Byte) : (s.store addr v).draws = s.draws := rfl

@[simp] theorem setReg_pc (s : State) (r : Reg8) (v : Byte) : (s.setReg r v).pc = s.pc := by cases r <;> rfl
@[simp] theorem setReg_sp (s : State) (r : Reg8) (v : Byte) : (s.setReg r v).sp = s.sp := by cases r <;> rfl
@[simp] theorem setReg_bootRomEnabled (s : State) (r : Reg8) (v : Byte) : (s.setReg r v).bootRomEnabled = s.bootRomEnabled := by cases r <;> rfl
@[simp] theorem setReg_mem (s : State) (r : Reg8) (v : Byte) : (s.setReg r v).mem = s.mem := by cases r <;> rfl
@[simp] theorem setReg_bootImage (s : State) (r : Reg8) (v : Byte) : (s.setReg r v).bootImage = s.bootImage := by cases r <;> rfl
@[simp] theorem setReg_fault (s : State) (r : Reg8) (v : Byte) : (s.setReg r v).fault = s.fault := by cases r <;> rfl
@[simp] theorem setReg_draws (s : State) (r : Reg8) (v : Byte) : (s.setReg r v).draws = s.draws := by cases r <;> rfl

@[simp] theorem setPair_pc (s : State) (p : Pair) (v : Word) : (s.setPair p v).pc = s.pc := by cases p <;> rfl
@[simp] theorem setPair_sp (s : State) (p : Pair) (v : Word) : (s.setPair p v).sp = s.sp := by cases p <;> rfl
@[simp] theorem setPair_bootRomEnabled (s : State) (p : Pair) (v : Word) : (s.setPair p v).bootRomEnabled = s.bootRomEnabled := by cases p <;> rfl
@[simp] theorem setPair_mem (s : State) (p : Pair) (v : Word) : (s.setPair p v).mem = s.mem := by cases p <;> rfl
@[simp] theorem setPair_bootImage (s : State) (p : Pair) (v : Word) : (s.setPair p v).bootImage = s.bootImage := by cases p <;> rfl
@[simp] theorem setPair_fault (s : State) (p : Pair) (v : Word) : (s.setPair p v).fault = s.fault := by cases p <;> rfl
@[simp] theorem setPair_draws (s : State) (p : Pair) (v : Word) : (s.setPair p v).draws = s.draws := by cases p <;> rfl

/-- A register reads back what was written to it, and no other register changes. -/
theorem getReg_setReg (s : State) (r q : Reg8) (v : Byte) :
    (s.setReg r v).getReg q = if q = r then v else s.getReg q := by
  cases r <;> cases q <;> rfl

@[simp] theorem getReg_setPC (s : State) (v : Word) (r : Reg8) : (s.setPC v).getReg r = s.getReg r := by
  cases r <;> rfl

@[simp] theorem getReg_setSP (s : State) (v : Word) (r : Reg8) : (s.setSP v).getReg r = s.getReg r := by
  cases r <;> rfl

@[simp] theorem getReg_store (s : State) (addr : Word) (v : Byte) (r : Reg8) :
    (s.store addr v).getReg r = s.getReg r := by
  cases r <;> rfl

@[simp] theorem getPair_setPC (s : State) (v : Word) (p : Pair) : (s.setPC v).getPair p = s.getPair p := by
  cases p <;> rfl

@[simp] theorem getPair_setSP (s : State) (v : Word) (p : Pair) : (s.setSP v).getPair p = s.getPair p := by
  cases p <;> rfl

@[simp] theorem getPair_store (s : State) (addr : Word) (v : Byte) (p : Pair) :
    (s.store addr v).getPair p = s.getPair p := by
  cases p <;> rfl

/-! ### The answers of operations -/

@[simp] theorem ok_andThen {α β : Type} (v : α) (s : State) (k : α → State → Res β) :
    (Res.ok v s).andThen k = k v s := rfl

@[simp] theorem fault_andThen {α β : Type} (r : Fault) (k : α → State → Res β) :
    (Res.fault r : Res α).andThen k = .fault r := rfl

@[simp] theorem raise_andThen {α β : Type} (r : FatalCondition) (s : State) (k : α → State → Res β) :
    (raise r s : Res α).andThen k = raise r s := rfl

@[simp] theorem done_ok {α : Type} (v : α) (s : State) : (Res.ok v s).done = .next s := rfl

@[simp] theorem done_fault {α : Type} (r : Fault) : (Res.fault r : Res α).done = .fault r := rfl

/-- An operation followed by another answers a value only if both do. -/
theorem andThen_eq_ok {α β : Type} {r : Res α} {k : α → State → Res β} {w : β} {t : State} :
    r.andThen k = .ok w t ↔ ∃ v s, r = .ok v s ∧ k v s = .ok w t := by
  cases r <;> simp [Res.andThen]

/-- An operation followed by another faults where the first one does, or else where the second one does. -/
theorem andThen_eq_fault {α β : Type} {r : Res α} {k : α → State → Res β} {e : Fault} :
    r.andThen k = .fault e ↔ r = .fault e ∨ ∃ v s, r = .ok v s ∧ k v s = .fault e := by
  cases r <;> simp [Res.andThen]

/-- An instruction answers a next state exactly when its operations answer a value. -/
theorem done_eq_next {α : Type} {r : Res α} {t : State} : r.done = .next t ↔ ∃ v, r = .ok v t := by
  cases r <;> simp [Res.done]

/-- An instruction answers a fault exactly when its operations do. -/
theorem done_eq_fault {α : Type} {r : Res α} {e : Fault} : r.done = .fault e ↔ r = .fault e := by
  cases r <;> simp [Res.done]

/-- No instruction's operations answer a refusal. -/
theorem done_ne_refused {α : Type} (r : Res α) (x : Refusal) : r.done ≠ .refused x := by
  cases r <;> simp [Res.done]

end Sys2Proof.Machine
end

