-- ==== Sys2Proof/Laws/Router.lean ====
section
/-! SUPPORT. What the router's read and write can do, said once over the address ranges of Safety, and the fetch and the
stack in those terms. -/

namespace Sys2Proof.Machine

open Sys2Proof.Safety

/-- The addresses of each region. -/
theorem region_spec (a : Word) :
    match region a with
    | .bootArea => a.toNat ≤ 0xFF
    | .sound => (0xFF10 ≤ a.toNat ∧ a.toNat ≤ 0xFF1E) ∨ (0xFF20 ≤ a.toNat ∧ a.toNat ≤ 0xFF26) ∨
        (0xFF30 ≤ a.toNat ∧ a.toNat ≤ 0xFF3F)
    | .lcdc => a.toNat = 0xFF40
    | .scy => a.toNat = 0xFF42
    | .scx => a.toNat = 0xFF43
    | .ly => a.toNat = 0xFF44
    | .bgp => a.toNat = 0xFF47
    | .bootLatch => a.toNat = 0xFF50
    | .unmodeled => unmodeledAddr a = true
    | .plain => 0xFF < a.toNat ∧ (a.toNat < 0xFF00 ∨ 0xFF7F < a.toNat) := by
  unfold region
  split_ifs <;> simp only [unmodeledAddr, decide_eq_true_eq] <;> omega

theorem unmodeledAddr_false {a : Word}
    (h : a.toNat < 0xFF00 ∨ 0xFF7F < a.toNat ∨ stubAddr a = true ∨ a.toNat = 0xFF42 ∨ a.toNat = 0xFF43 ∨
      a.toNat = 0xFF44 ∨ a.toNat = 0xFF50) : unmodeledAddr a = false := by
  simp only [stubAddr, unmodeledAddr, decide_eq_true_eq, decide_eq_false_iff_not] at h ⊢
  omega

theorem stubAddr_false {a : Word}
    (h : a.toNat < 0xFF00 ∨ 0xFF7F < a.toNat ∨ a.toNat = 0xFF42 ∨ a.toNat = 0xFF43 ∨ a.toNat = 0xFF44 ∨
      a.toNat = 0xFF50) : stubAddr a = false := by
  simp only [stubAddr, decide_eq_false_iff_not]
  omega

theorem stubAddr_true {a : Word}
    (h : (0xFF10 ≤ a.toNat ∧ a.toNat ≤ 0xFF1E) ∨ (0xFF20 ≤ a.toNat ∧ a.toNat ≤ 0xFF26) ∨
      (0xFF30 ≤ a.toNat ∧ a.toNat ≤ 0xFF3F) ∨ a.toNat = 0xFF40 ∨ a.toNat = 0xFF47) : stubAddr a = true := by
  simpa only [stubAddr, decide_eq_true_eq] using h

/-- The router's read, in full (20_memory R60). -/
theorem memRead_eq (a : Word) (s : State) :
    memRead a s =
      if readable a then .ok (readValue s a) (afterRead s a) else raise (.illegalMemoryAccess a .read) s := by
  have h := region_spec a
  unfold memRead
  cases hr : region a <;> simp only [hr] at h ⊢
  case unmodeled => simp [readable, h]
  case bootArea =>
    rw [readable, unmodeledAddr_false (by omega), readValue, afterRead, stubAddr_false (by omega), overlaid,
      decide_eq_true (by omega : a.toNat < 0x100), if_neg (by omega : ¬a.toNat = 0xFF44)]
    simp only [Bool.true_and, Bool.false_eq_true, if_false, Bool.not_false, if_true]
  case sound =>
    have hs : stubAddr a = true := stubAddr_true (by omega)
    rw [readable, unmodeledAddr_false (by simp [hs]), readValue, afterRead, hs, overlaid,
      decide_eq_false (by omega : ¬a.toNat < 0x100)]
    rfl
  case lcdc =>
    have hs : stubAddr a = true := stubAddr_true (by omega)
    rw [readable, unmodeledAddr_false (by simp [hs]), readValue, afterRead, hs, overlaid,
      decide_eq_false (by omega : ¬a.toNat < 0x100)]
    rfl
  case bgp =>
    have hs : stubAddr a = true := stubAddr_true (by omega)
    rw [readable, unmodeledAddr_false (by simp [hs]), readValue, afterRead, hs, overlaid,
      decide_eq_false (by omega : ¬a.toNat < 0x100)]
    rfl
  case ly =>
    rw [readable, unmodeledAddr_false (by omega), readValue, afterRead, stubAddr_false (by omega), overlaid,
      decide_eq_false (by omega : ¬a.toNat < 0x100), if_pos h]
    rfl
  all_goals
    rw [readable, unmodeledAddr_false (by omega), readValue, afterRead, stubAddr_false (by omega), overlaid,
      decide_eq_false (by omega : ¬a.toNat < 0x100), if_neg (by omega : ¬a.toNat = 0xFF44)]
    rfl

/-- The router's write, in full (20_memory R61). -/
theorem memWrite_eq (a : Word) (v : Byte) (s : State) :
    memWrite a v s =
      if writable s a then .ok () (afterWrite s a v) else raise (.illegalMemoryAccess a .write) s := by
  have h := region_spec a
  unfold memWrite
  cases hr : region a <;> simp only [hr] at h ⊢
  case unmodeled => simp [writable, h]
  case ly => simp [writable, h]
  case bootArea =>
    have hn : (a.toNat != 0xFF44) = true := by simp; omega
    have hl : ¬(a.toNat = 0xFF50 ∧ v ≠ 0) := by omega
    rw [writable, unmodeledAddr_false (by omega), hn, overlaid, decide_eq_true (by omega : a.toNat < 0x100),
      afterWrite, if_neg hl]
    cases hb : s.bootRomEnabled <;> simp [State.store, hb]
  case bootLatch =>
    have hn : (a.toNat != 0xFF44) = true := by simp; omega
    rw [writable, unmodeledAddr_false (by omega), hn, overlaid, decide_eq_false (by omega : ¬a.toNat < 0x100),
      afterWrite, State.store]
    by_cases hv : v = 0 <;> simp [h, hv]
  all_goals
    have hn : (a.toNat != 0xFF44) = true := by simp; omega
    have hl : ¬(a.toNat = 0xFF50 ∧ v ≠ 0) := by omega
    rw [writable, unmodeledAddr_false (by simp only [stubAddr, decide_eq_true_eq]; omega), hn, overlaid,
      decide_eq_false (by omega : ¬a.toNat < 0x100), afterWrite, if_neg hl]
    rfl

end Sys2Proof.Machine
end

