-- ==== Sys2Proof/Laws/Operands.lean ====
section
/-! SUPPORT. Operand slots, flags, fetch and stack in the vocabulary of Safety: one lemma per shared operation that says
everything it can do. -/

namespace Sys2Proof.Machine

open Sys2Proof.Safety

/-! ### Bits -/

theorem mkWord_toNat (hi lo : Byte) : (mkWord hi lo).toNat = hi.toNat * 256 + lo.toNat := by
  rw [mkWord, BitVec.toNat_append, Nat.shiftLeft_eq, ← Nat.shiftLeft_eq, Nat.shiftLeft_add_eq_or_of_lt lo.isLt,
    Nat.shiftLeft_eq]

theorem hiByte_toNat (v : Word) : (hiByte v).toNat = v.toNat / 256 := by
  have := v.isLt
  rw [hiByte, BitVec.extractLsb'_toNat, Nat.shiftRight_eq_div_pow]
  omega

theorem loByte_toNat (v : Word) : (loByte v).toNat = v.toNat % 256 := by
  simp [loByte, BitVec.extractLsb'_toNat]

/-- A word is its two bytes. -/
@[simp] theorem mkWord_hi_lo (v : Word) : mkWord (hiByte v) (loByte v) = v := by
  apply BitVec.eq_of_toNat_eq
  rw [mkWord_toNat, hiByte_toNat, loByte_toNat]
  omega

@[simp] theorem hiByte_mkWord (hi lo : Byte) : hiByte (mkWord hi lo) = hi := by
  have := lo.isLt
  apply BitVec.eq_of_toNat_eq
  rw [hiByte_toNat, mkWord_toNat]
  omega

@[simp] theorem loByte_mkWord (hi lo : Byte) : loByte (mkWord hi lo) = lo := by
  have := lo.isLt
  apply BitVec.eq_of_toNat_eq
  rw [loByte_toNat, mkWord_toNat]
  omega

theorem mkWord_eq_ofNat (hi lo : Byte) : mkWord hi lo = BitVec.ofNat 16 (hi.toNat * 256 + lo.toNat) := by
  have := hi.isLt
  have := lo.isLt
  apply BitVec.eq_of_toNat_eq
  rw [mkWord_toNat, BitVec.toNat_ofNat]
  omega

theorem hlAddr_eq (s : State) : hlAddr s = s.getPair .hl := (mkWord_eq_ofNat s.h s.l).symm

/-! ### Slots -/

/-- `get(slot)`, in full. -/
theorem getSlot_eq (x : Slot) (s : State) :
    getSlot x s =
      if slotReadable x s then .ok (slotValue x s) (afterSlotRead x s)
      else raise (.illegalMemoryAccess (hlAddr s) .read) s := by
  cases x
  case atHL =>
    rw [show getSlot .atHL s = memRead (s.getPair .hl) s from rfl, memRead_eq]
    simp only [slotReadable, slotValue, afterSlotRead, hlAddr_eq]
  all_goals rfl

/-- `set(slot, v)`, in full. -/
theorem setSlot_eq (x : Slot) (v : Byte) (s : State) :
    setSlot x v s =
      if slotWritable x s then .ok () (afterSlotWrite x v s)
      else raise (.illegalMemoryAccess (hlAddr s) .write) s := by
  cases x
  case atHL =>
    rw [show setSlot .atHL v s = memWrite (s.getPair .hl) v s from rfl, memWrite_eq]
    simp only [slotWritable, afterSlotWrite, hlAddr_eq]
  all_goals rfl

/-- The second operand of an accumulator operation, in full. -/
theorem getSrc_eq (x : AluSrc) (s : State) :
    getSrc x s =
      if srcReadable x s then .ok (srcValue x s) (afterSrcRead x s)
      else raise (.illegalMemoryAccess (hlAddr s) .read) s := by
  cases x
  case slot r => exact getSlot_eq r s
  case imm v => rfl

/-! ### Flags -/

theorem and_low_toNat (f : Byte) : (f &&& 0x0F#8).toNat = f.toNat % 16 := by
  rw [BitVec.toNat_and]
  exact Nat.and_two_pow_sub_one_eq_mod f.toNat 4

theorem flagsValid_iff (s : State) : s.flagsValid = true ↔ flagsOk s := by
  rw [State.flagsValid, beq_iff_eq, flagsOk, ← and_low_toNat]
  constructor
  · intro h; rw [h]; rfl
  · intro h; exact BitVec.eq_of_toNat_eq h

/-- The flag predicates answer the flags when F's low nibble is 0. -/
theorem getFlags_ok {s : State} (h : flagsOk s) : getFlags s = .ok (flagsOfByte s.f) s :=
  if_pos ((flagsValid_iff s).2 h)

/-- The flag setters write F when its low nibble is 0. -/
theorem setFlags_ok {s : State} (fl : Flags) (h : flagsOk s) : setFlags fl s = .ok () { s with f := fl.toByte } :=
  if_pos ((flagsValid_iff s).2 h)

/-- A flag predicate on a nonzero low nibble is an invariant violation. -/
theorem getFlags_violation {s : State} (h : ¬flagsOk s) : getFlags s = raise .invariantViolation s :=
  if_neg (mt (flagsValid_iff s).1 h)

/-- A flag setter on a nonzero low nibble is an invariant violation. -/
theorem setFlags_violation {s : State} (fl : Flags) (h : ¬flagsOk s) : setFlags fl s = raise .invariantViolation s :=
  if_neg (mt (flagsValid_iff s).1 h)

/-- The byte of F for four flags. -/
theorem toByte_eq (fl : Flags) : fl.toByte = flagByte fl.z fl.n fl.h fl.c := by
  obtain ⟨z, n, h, c⟩ := fl
  cases z <;> cases n <;> cases h <;> cases c <;> rfl

/-- A byte of F made from flags has a zero low nibble (10_state R25). -/
theorem flagByte_low (z n h c : Bool) : (flagByte z n h c).toNat % 16 = 0 := by
  cases z <;> cases n <;> cases h <;> cases c <;> rfl

theorem getLsbD_eq_div (f : Byte) (i : Nat) : f.getLsbD i = (f.toNat / 2 ^ i % 2 == 1) := by
  rw [BitVec.getLsbD, Nat.testBit_eq_decide_div_mod_eq]
  rfl

/-- The bits of a byte of F made from flags (10_state R26). -/
theorem flagByte_bits (z n h c : Bool) :
    (flagByte z n h c).getLsbD 7 = z ∧ (flagByte z n h c).getLsbD 6 = n ∧ (flagByte z n h c).getLsbD 5 = h ∧
      (flagByte z n h c).getLsbD 4 = c ∧ ∀ k, k < 4 → (flagByte z n h c).getLsbD k = false := by
  revert z n h c; decide

/-- The four flags a byte of F was made from. -/
@[simp] theorem flagsOfByte_flagByte (z n h c : Bool) :
    flagsOfByte (flagByte z n h c) = { z := z, n := n, h := h, c := c } := by
  revert z n h c; decide

theorem flagsOfByte_c (s : State) : (flagsOfByte s.f).c = carry s := getLsbD_eq_div s.f 4

theorem flagsOfByte_z (s : State) : (flagsOfByte s.f).z = zero s := getLsbD_eq_div s.f 7

/-! ### Fetch and stack -/

/-- `Fetch8()`, in full. -/
theorem fetch8_eq (s : State) :
    fetch8 s =
      if readable s.pc then .ok (readValue s s.pc) { afterRead s s.pc with pc := s.pc + 1 }
      else raise (.illegalMemoryAccess s.pc .read) s := by
  unfold fetch8
  rw [memRead_eq]
  split <;> rfl

/-- A fetch from an address that holds code: no draw is made. -/
theorem fetch8_code {s : State} (hr : readable s.pc = true) (hs : stubAddr s.pc = false) :
    fetch8 s = .ok (readValue s s.pc) { s with pc := s.pc + 1 } := by
  rw [fetch8_eq, if_pos hr]; simp [afterRead, hs]

/-- `Push16(v)`, in full. -/
theorem push16_eq (v : Word) (s : State) :
    push16 v s =
      if writable s s.sp then
        if writable (afterWrite s s.sp (loByte v)) (s.sp + 1) then
          .ok () { afterWrite (afterWrite s s.sp (loByte v)) (s.sp + 1) (hiByte v) with sp := s.sp - 2 }
        else raise (.illegalMemoryAccess (s.sp + 1) .write) (afterWrite s s.sp (loByte v))
      else raise (.illegalMemoryAccess s.sp .write) s := by
  unfold push16
  rw [memWrite_eq]
  split
  · rw [ok_andThen, memWrite_eq]
    have hsp : (afterWrite s s.sp (loByte v)).sp = s.sp := rfl
    rw [hsp]
    split <;> rfl
  · rfl

/-- `Pop16()`, in full. -/
theorem pop16_eq (s : State) :
    pop16 s =
      if readable (s.sp + 2) then
        if readable (s.sp + 3) then
          .ok (mkWord (readValue (afterRead s (s.sp + 2)) (s.sp + 3)) (readValue s (s.sp + 2)))
            { afterRead (afterRead s (s.sp + 2)) (s.sp + 3) with sp := s.sp + 2 }
        else raise (.illegalMemoryAccess (s.sp + 3) .read) { afterRead s (s.sp + 2) with sp := s.sp + 2 }
      else raise (.illegalMemoryAccess (s.sp + 2) .read) { s with sp := s.sp + 2 } := by
  have h3 : s.sp + 2 + 1 = s.sp + 3 := by rw [BitVec.add_assoc]; rfl
  unfold pop16
  simp only [setSP_sp, memRead_eq]
  split
  · rw [ok_andThen]
    have hsp : (afterRead (s.setSP (s.sp + 2)) (s.sp + 2)).sp + 1 = s.sp + 3 := h3
    rw [hsp]
    split <;> rfl
  · rfl

end Sys2Proof.Machine
end

