-- ==== Sys2Proof/Laws/Exec.lean ====
section
/-! SUPPORT. An instruction's meaning is its form's: 170 constructors by 23 forms. -/

namespace Sys2Proof.Machine

/-- The shared operation of each form, for proofs by form. -/
def formMeaning (fm : Form) (s : State) : StepResult :=
  match fm with
  | .ldPair p v => loadPair p v s
  | .ldImm x v => loadImm x v s
  | .ld x y => move x y s
  | .inc x => incSlot x s
  | .dec x => decSlot x s
  | .incPair .bc => incPair .bc s
  | .incPair .de => incPair .de s
  | .incPair .hl => incPair .hl s
  | .incPair .sp => .next s
  | .decPair .bc => decPair .bc s
  | .decPair .de => decPair .de s
  | .decPair .hl => decPair .hl s
  | .decPair .sp => .next s
  | .alu op src => accumulate op src s
  | .push q => pushPair q s
  | .pop q => popPair q s
  | .jr e => jumpRel e s
  | .jrCond cc e => jumpCond cc e s
  | .call t => callAbs t s
  | .ret => returnPop s
  | .storeHigh o => storeA (highAddr o) s
  | .loadHigh o => loadA (highAddr o) s
  | .storeHighC => storeA (highAddr (s.getReg .c)) s
  | .loadHighC => loadA (highAddr (s.getReg .c)) s
  | .storeAbs t => storeA t s
  | .loadAbs t => loadA t s
  | .rla => rotateA s
  | .rl x => rotateSlot x s
  | .bit7 x => testBit7 x s

/-- Every instruction's form is admitted (30_encoding R95). -/
theorem wellFormed_form (i : Instr) : i.form.wellFormed = true := by
  cases i <;> rfl

/-- `exec` is its form's shared operation. -/
theorem exec_eq_formMeaning (i : Instr) (s : State) : exec i s = formMeaning i.form s := by
  cases i <;> rfl

end Sys2Proof.Machine
end

