-- ==== Sys2Proof/Laws/Meanings.lean ====
section
/-! SUPPORT. For each shared meaning, what its answering a next state says: the conditions it met and the state. -/

namespace Sys2Proof.Machine

open Sys2Proof.Safety

/-! ### What an operand access leaves alone -/

@[simp] theorem afterSlotRead_f (x : Slot) (s : State) : (afterSlotRead x s).f = s.f := by cases x <;> rfl

@[simp] theorem afterSrcRead_f (x : AluSrc) (s : State) : (afterSrcRead x s).f = s.f := by
  cases x
  case slot r => exact afterSlotRead_f r s
  case imm v => rfl

@[simp] theorem afterSrcRead_a (x : AluSrc) (s : State) : (afterSrcRead x s).a = s.a := by
  cases x
  case slot r => cases r <;> rfl
  case imm v => rfl

@[simp] theorem afterSlotWrite_f (x : Slot) (v : Byte) (s : State) : (afterSlotWrite x v s).f = s.f := by
  cases x <;> rfl

@[simp] theorem slotWritable_afterSlotRead (x y : Slot) (s : State) :
    slotWritable y (afterSlotRead x s) = slotWritable y s := by
  cases x <;> cases y <;> rfl

@[simp] theorem hlAddr_afterSlotRead (x : Slot) (s : State) : hlAddr (afterSlotRead x s) = hlAddr s := by
  cases x <;> rfl

@[simp] theorem storeResult_f (op : AluOp) (v : Byte) (s : State) : (storeResult op v s).f = s.f := by
  cases op <;> rfl

@[simp] theorem afterRead_pc (s : State) (a : Word) : (afterRead s a).pc = s.pc := rfl

@[simp] theorem afterWrite_pc (s : State) (a : Word) (v : Byte) : (afterWrite s a v).pc = s.pc := rfl

@[simp] theorem afterSlotWrite_pc (x : Slot) (v : Byte) (s : State) : (afterSlotWrite x v s).pc = s.pc := by
  cases x <;> rfl

@[simp] theorem afterRead_sp (s : State) (a : Word) : (afterRead s a).sp = s.sp := rfl

@[simp] theorem afterWrite_sp (s : State) (a : Word) (v : Byte) : (afterWrite s a v).sp = s.sp := rfl

@[simp] theorem afterSlotWrite_sp (x : Slot) (v : Byte) (s : State) : (afterSlotWrite x v s).sp = s.sp := by
  cases x <;> rfl

@[simp] theorem afterRead_bootImage (s : State) (a : Word) : (afterRead s a).bootImage = s.bootImage := rfl

@[simp] theorem afterWrite_bootImage (s : State) (a : Word) (v : Byte) : (afterWrite s a v).bootImage = s.bootImage := rfl

@[simp] theorem afterSlotWrite_bootImage (x : Slot) (v : Byte) (s : State) : (afterSlotWrite x v s).bootImage = s.bootImage := by
  cases x <;> rfl

@[simp] theorem afterRead_fault (s : State) (a : Word) : (afterRead s a).fault = s.fault := rfl

@[simp] theorem afterWrite_fault (s : State) (a : Word) (v : Byte) : (afterWrite s a v).fault = s.fault := rfl

@[simp] theorem afterSlotWrite_fault (x : Slot) (v : Byte) (s : State) : (afterSlotWrite x v s).fault = s.fault := by
  cases x <;> rfl

@[simp] theorem afterSlotRead_pc (x : Slot) (s : State) : (afterSlotRead x s).pc = s.pc := by cases x <;> rfl

@[simp] theorem afterSrcRead_pc (x : AluSrc) (s : State) : (afterSrcRead x s).pc = s.pc := by
  cases x
  case slot r => exact afterSlotRead_pc r s
  case imm v => rfl

@[simp] theorem afterSlotRead_sp (x : Slot) (s : State) : (afterSlotRead x s).sp = s.sp := by cases x <;> rfl

@[simp] theorem afterSrcRead_sp (x : AluSrc) (s : State) : (afterSrcRead x s).sp = s.sp := by
  cases x
  case slot r => exact afterSlotRead_sp r s
  case imm v => rfl

@[simp] theorem afterSlotRead_bootImage (x : Slot) (s : State) : (afterSlotRead x s).bootImage = s.bootImage := by cases x <;> rfl

@[simp] theorem afterSrcRead_bootImage (x : AluSrc) (s : State) : (afterSrcRead x s).bootImage = s.bootImage := by
  cases x
  case slot r => exact afterSlotRead_bootImage r s
  case imm v => rfl

@[simp] theorem afterSlotRead_fault (x : Slot) (s : State) : (afterSlotRead x s).fault = s.fault := by cases x <;> rfl

@[simp] theorem afterSrcRead_fault (x : AluSrc) (s : State) : (afterSrcRead x s).fault = s.fault := by
  cases x
  case slot r => exact afterSlotRead_fault r s
  case imm v => rfl

@[simp] theorem afterRead_mem (s : State) (a : Word) : (afterRead s a).mem = s.mem := rfl

@[simp] theorem afterSlotRead_mem (x : Slot) (s : State) : (afterSlotRead x s).mem = s.mem := by cases x <;> rfl

@[simp] theorem afterSrcRead_mem (x : AluSrc) (s : State) : (afterSrcRead x s).mem = s.mem := by
  cases x
  case slot r => exact afterSlotRead_mem r s
  case imm v => rfl

@[simp] theorem afterRead_bootRomEnabled (s : State) (a : Word) : (afterRead s a).bootRomEnabled = s.bootRomEnabled := rfl

@[simp] theorem afterSlotRead_bootRomEnabled (x : Slot) (s : State) : (afterSlotRead x s).bootRomEnabled = s.bootRomEnabled := by cases x <;> rfl

@[simp] theorem afterSrcRead_bootRomEnabled (x : AluSrc) (s : State) : (afterSrcRead x s).bootRomEnabled = s.bootRomEnabled := by
  cases x
  case slot r => exact afterSlotRead_bootRomEnabled r s
  case imm v => rfl

/-! ### Operations -/

theorem memRead_ok {a : Word} {s t : State} {v : Byte} (h : memRead a s = .ok v t) :
    readable a = true ∧ v = readValue s a ∧ t = afterRead s a := by
  rw [memRead_eq] at h
  split at h
  · next hr => cases h; exact ⟨hr, rfl, rfl⟩
  · cases h

theorem memWrite_ok {a : Word} {s t : State} {v : Byte} {u : Unit} (h : memWrite a v s = .ok u t) :
    writable s a = true ∧ t = afterWrite s a v := by
  rw [memWrite_eq] at h
  split at h
  · next hw => cases h; exact ⟨hw, rfl⟩
  · cases h

theorem getSlot_ok {x : Slot} {s t : State} {v : Byte} (h : getSlot x s = .ok v t) :
    slotReadable x s = true ∧ v = slotValue x s ∧ t = afterSlotRead x s := by
  rw [getSlot_eq] at h
  split at h
  · next hr => cases h; exact ⟨hr, rfl, rfl⟩
  · cases h

theorem setSlot_ok {x : Slot} {s t : State} {v : Byte} {u : Unit} (h : setSlot x v s = .ok u t) :
    slotWritable x s = true ∧ t = afterSlotWrite x v s := by
  rw [setSlot_eq] at h
  split at h
  · next hw => cases h; exact ⟨hw, rfl⟩
  · cases h

theorem getSrc_ok {x : AluSrc} {s t : State} {v : Byte} (h : getSrc x s = .ok v t) :
    srcReadable x s = true ∧ v = srcValue x s ∧ t = afterSrcRead x s := by
  rw [getSrc_eq] at h
  split at h
  · next hr => cases h; exact ⟨hr, rfl, rfl⟩
  · cases h

theorem getFlags_inv {s t : State} {fl : Flags} (h : getFlags s = .ok fl t) :
    flagsOk s ∧ fl = flagsOfByte s.f ∧ t = s := by
  by_cases hf : flagsOk s
  · rw [getFlags_ok hf] at h; cases h; exact ⟨hf, rfl, rfl⟩
  · rw [getFlags_violation hf] at h; cases h

theorem setFlags_inv {s t : State} {fl : Flags} {u : Unit} (h : setFlags fl s = .ok u t) :
    flagsOk s ∧ t = { s with f := fl.toByte } := by
  by_cases hf : flagsOk s
  · rw [setFlags_ok fl hf] at h; cases h; exact ⟨hf, rfl⟩
  · rw [setFlags_violation fl hf] at h; cases h

theorem fetch8_ok {s t : State} {v : Byte} (h : fetch8 s = .ok v t) :
    readable s.pc = true ∧ v = readValue s s.pc ∧ t = { afterRead s s.pc with pc := s.pc + 1 } := by
  rw [fetch8_eq] at h
  split at h
  · next hr => cases h; exact ⟨hr, rfl, rfl⟩
  · cases h

theorem push16_ok {v : Word} {s t : State} {u : Unit} (h : push16 v s = .ok u t) :
    pushWritable (loByte v) s = true ∧ t = afterPush (hiByte v) (loByte v) s := by
  rw [push16_eq] at h
  split at h
  · next h1 =>
    split at h
    · next h2 => cases h; exact ⟨by rw [pushWritable, h1, h2]; rfl, rfl⟩
    · cases h
  · cases h

theorem pop16_ok {s t : State} {v : Word} (h : pop16 s = .ok v t) :
    readable (s.sp + 2) = true ∧ readable (s.sp + 3) = true ∧ v = mkWord (popHigh s) (popLow s) ∧ t = afterPop s := by
  rw [pop16_eq] at h
  split at h
  · next h1 =>
    split at h
    · next h2 => cases h; exact ⟨h1, h2, rfl, rfl⟩
    · cases h
  · cases h

/-! ### Meanings -/

theorem loadImm_next {x : Slot} {v : Byte} {s t : State} (h : loadImm x v s = .next t) :
    slotWritable x s = true ∧ t = afterSlotWrite x v s := by
  obtain ⟨u, hu⟩ := done_eq_next.1 h
  exact setSlot_ok hu

theorem move_next {x y : Slot} {s t : State} (h : move x y s = .next t) :
    slotReadable y s = true ∧ slotWritable x s = true ∧
      t = afterSlotWrite x (slotValue y s) (afterSlotRead y s) := by
  obtain ⟨u, hu⟩ := done_eq_next.1 h
  obtain ⟨v, s1, h1, h2⟩ := andThen_eq_ok.1 hu
  obtain ⟨hr, rfl, rfl⟩ := getSlot_ok h1
  obtain ⟨hw, rfl⟩ := setSlot_ok h2
  exact ⟨hr, by simpa using hw, rfl⟩

theorem modifySlot_next {m : Byte → Flags → MicroResult} {x : Slot} {s t : State} (h : modifySlot m x s = .next t) :
    flagsOk s ∧ slotReadable x s = true ∧ slotWritable x s = true ∧
      t = { afterSlotWrite x (m (slotValue x s) (flagsOfByte s.f)).val (afterSlotRead x s) with
        f := (m (slotValue x s) (flagsOfByte s.f)).flags.toByte } := by
  obtain ⟨u, hu⟩ := done_eq_next.1 h
  obtain ⟨v, s1, h1, hu⟩ := andThen_eq_ok.1 hu
  obtain ⟨hr, rfl, rfl⟩ := getSlot_ok h1
  obtain ⟨fl, s2, h2, hu⟩ := andThen_eq_ok.1 hu
  obtain ⟨hf, rfl, rfl⟩ := getFlags_inv h2
  obtain ⟨w, s3, h3, hu⟩ := andThen_eq_ok.1 hu
  obtain ⟨hw, rfl⟩ := setSlot_ok h3
  obtain ⟨-, rfl⟩ := setFlags_inv hu
  exact ⟨by simpa [flagsOk] using hf, hr, by simpa using hw, by simp⟩

theorem accumulate_next {op : AluOp} {src : AluSrc} {s t : State} (h : accumulate op src s = .next t) :
    flagsOk s ∧ srcReadable src s = true ∧
      t = { storeResult op (aluMicro op s.a (srcValue src s)).val (afterSrcRead src s) with
        f := (aluMicro op s.a (srcValue src s)).flags.toByte } := by
  obtain ⟨u, hu⟩ := done_eq_next.1 h
  obtain ⟨v, s1, h1, hu⟩ := andThen_eq_ok.1 hu
  obtain ⟨hr, rfl, rfl⟩ := getSrc_ok h1
  obtain ⟨hf, rfl⟩ := setFlags_inv hu
  refine ⟨by simpa [flagsOk] using hf, hr, ?_⟩
  simp [State.getReg]

theorem pushPair_next {q : Pair} {s t : State} (h : pushPair q s = .next t) :
    pushWritable (pairLo q s) s = true ∧ t = afterPush (pairHi q s) (pairLo q s) s := by
  obtain ⟨u, hu⟩ := done_eq_next.1 h
  have := push16_ok hu
  cases q <;> simpa [State.getPair, pairHi, pairLo] using this

theorem popPair_next {q : Pair} {s t : State} (h : popPair q s = .next t) :
    readable (s.sp + 2) = true ∧ readable (s.sp + 3) = true ∧
      t = (afterPop s).setPair q (mkWord (popHigh s) (popLow s)) := by
  obtain ⟨u, hu⟩ := done_eq_next.1 h
  obtain ⟨v, s1, h1, hu⟩ := andThen_eq_ok.1 hu
  obtain ⟨h2, h3, rfl, rfl⟩ := pop16_ok h1
  cases hu
  exact ⟨h2, h3, rfl⟩

theorem jumpCond_next {cc : Cond} {e : Byte} {s t : State} (h : jumpCond cc e s = .next t) :
    flagsOk s ∧ t = if condHolds cc (flagsOfByte s.f) then s.setPC (jumpTarget e s) else s := by
  obtain ⟨u, hu⟩ := done_eq_next.1 h
  obtain ⟨fl, s1, h1, hu⟩ := andThen_eq_ok.1 hu
  obtain ⟨hf, rfl, rfl⟩ := getFlags_inv h1
  cases hu
  exact ⟨hf, rfl⟩

theorem callAbs_next {a : Word} {s t : State} (h : callAbs a s = .next t) :
    pushWritable (loByte s.pc) s = true ∧ t = (afterPush (hiByte s.pc) (loByte s.pc) s).setPC a := by
  obtain ⟨u, hu⟩ := done_eq_next.1 h
  obtain ⟨v, s1, h1, hu⟩ := andThen_eq_ok.1 hu
  obtain ⟨hw, rfl⟩ := push16_ok h1
  cases hu
  exact ⟨hw, rfl⟩

theorem returnPop_next {s t : State} (h : returnPop s = .next t) :
    readable (s.sp + 2) = true ∧ readable (s.sp + 3) = true ∧
      t = (afterPop s).setPC (mkWord (popHigh s) (popLow s)) := by
  obtain ⟨u, hu⟩ := done_eq_next.1 h
  obtain ⟨v, s1, h1, hu⟩ := andThen_eq_ok.1 hu
  obtain ⟨h2, h3, rfl, rfl⟩ := pop16_ok h1
  cases hu
  exact ⟨h2, h3, rfl⟩

theorem storeA_next {a : Word} {s t : State} (h : storeA a s = .next t) :
    writable s a = true ∧ t = afterWrite s a s.a := by
  obtain ⟨u, hu⟩ := done_eq_next.1 h
  exact memWrite_ok hu

theorem loadA_next {a : Word} {s t : State} (h : loadA a s = .next t) :
    readable a = true ∧ t = (afterRead s a).setReg .a (readValue s a) := by
  obtain ⟨u, hu⟩ := done_eq_next.1 h
  obtain ⟨v, s1, h1, hu⟩ := andThen_eq_ok.1 hu
  obtain ⟨hr, rfl, rfl⟩ := memRead_ok h1
  cases hu
  exact ⟨hr, rfl⟩

theorem rotateA_next {s t : State} (h : rotateA s = .next t) :
    flagsOk s ∧ t = { s with
      a := (rla8 s.a (flagsOfByte s.f)).val
      f := (rla8 s.a (flagsOfByte s.f)).flags.toByte } := by
  obtain ⟨u, hu⟩ := done_eq_next.1 h
  obtain ⟨fl, s1, h1, hu⟩ := andThen_eq_ok.1 hu
  obtain ⟨hf, rfl, rfl⟩ := getFlags_inv h1
  obtain ⟨-, rfl⟩ := setFlags_inv hu
  exact ⟨hf, rfl⟩

theorem testBit7_next {x : Slot} {s t : State} (h : testBit7 x s = .next t) :
    flagsOk s ∧ slotReadable x s = true ∧
      t = { afterSlotRead x s with f := (bittest (slotValue x s) s.h (flagsOfByte s.f)).toByte } := by
  obtain ⟨u, hu⟩ := done_eq_next.1 h
  obtain ⟨v, s1, h1, hu⟩ := andThen_eq_ok.1 hu
  obtain ⟨hr, rfl, rfl⟩ := getSlot_ok h1
  obtain ⟨fl, s2, h2, hu⟩ := andThen_eq_ok.1 hu
  obtain ⟨hf, rfl, rfl⟩ := getFlags_inv h2
  obtain ⟨-, rfl⟩ := setFlags_inv hu
  refine ⟨by simpa [flagsOk] using hf, hr, ?_⟩
  have hh : (afterSlotRead x s).getReg .h = s.h := by cases x <;> rfl
  rw [hh, afterSlotRead_f]

end Sys2Proof.Machine
end

