-- ==== Sys2Proof/Laws/PerInstr.lean ====
section
/-! SUPPORT. The per-instruction family Encoding: an instruction is admitted, and its encoding has 1 to 3 bytes
(30_encoding R90, R95). -/

namespace Sys2Proof.Laws.Encoding

/-- The instruction is well-formed and its encoding is neither empty nor longer than 3 bytes. -/
def Statement (i : Instr) : Prop :=
  i.wellFormed = true ∧ 1 ≤ (encode i).length ∧ (encode i).length ≤ maxLength

/-- The lengths are numbers, so the statement is checked by computing it. -/
theorem of_ble {i : Instr} (hw : i.wellFormed = true) (h1 : Nat.ble 1 (encode i).length = true)
    (h3 : Nat.ble (encode i).length maxLength = true) : Statement i :=
  ⟨hw, Nat.le_of_ble_eq_true h1, Nat.le_of_ble_eq_true h3⟩

theorem ld_BC_d16 (d16 : Word) : Statement (.ld_BC_d16 d16) := of_ble rfl rfl rfl
theorem inc_BC : Statement .inc_BC := of_ble rfl rfl rfl
theorem inc_B : Statement .inc_B := of_ble rfl rfl rfl
theorem dec_B : Statement .dec_B := of_ble rfl rfl rfl
theorem ld_B_d8 (d8 : Byte) : Statement (.ld_B_d8 d8) := of_ble rfl rfl rfl
theorem dec_BC : Statement .dec_BC := of_ble rfl rfl rfl
theorem inc_C : Statement .inc_C := of_ble rfl rfl rfl
theorem dec_C : Statement .dec_C := of_ble rfl rfl rfl
theorem ld_C_d8 (d8 : Byte) : Statement (.ld_C_d8 d8) := of_ble rfl rfl rfl
theorem ld_DE_d16 (d16 : Word) : Statement (.ld_DE_d16 d16) := of_ble rfl rfl rfl
theorem inc_DE : Statement .inc_DE := of_ble rfl rfl rfl
theorem inc_D : Statement .inc_D := of_ble rfl rfl rfl
theorem dec_D : Statement .dec_D := of_ble rfl rfl rfl
theorem ld_D_d8 (d8 : Byte) : Statement (.ld_D_d8 d8) := of_ble rfl rfl rfl
theorem rla : Statement .rla := of_ble rfl rfl rfl
theorem jr_e8 (e8 : Byte) : Statement (.jr_e8 e8) := of_ble rfl rfl rfl
theorem dec_DE : Statement .dec_DE := of_ble rfl rfl rfl
theorem inc_E : Statement .inc_E := of_ble rfl rfl rfl
theorem dec_E : Statement .dec_E := of_ble rfl rfl rfl
theorem ld_E_d8 (d8 : Byte) : Statement (.ld_E_d8 d8) := of_ble rfl rfl rfl
theorem jr_NZ_e8 (e8 : Byte) : Statement (.jr_NZ_e8 e8) := of_ble rfl rfl rfl
theorem ld_HL_d16 (d16 : Word) : Statement (.ld_HL_d16 d16) := of_ble rfl rfl rfl
theorem inc_HL : Statement .inc_HL := of_ble rfl rfl rfl
theorem inc_H : Statement .inc_H := of_ble rfl rfl rfl
theorem dec_H : Statement .dec_H := of_ble rfl rfl rfl
theorem ld_H_d8 (d8 : Byte) : Statement (.ld_H_d8 d8) := of_ble rfl rfl rfl
theorem jr_Z_e8 (e8 : Byte) : Statement (.jr_Z_e8 e8) := of_ble rfl rfl rfl
theorem dec_HL : Statement .dec_HL := of_ble rfl rfl rfl
theorem inc_L : Statement .inc_L := of_ble rfl rfl rfl
theorem dec_L : Statement .dec_L := of_ble rfl rfl rfl
theorem ld_L_d8 (d8 : Byte) : Statement (.ld_L_d8 d8) := of_ble rfl rfl rfl
theorem jr_NC_e8 (e8 : Byte) : Statement (.jr_NC_e8 e8) := of_ble rfl rfl rfl
theorem ld_SP_d16 (d16 : Word) : Statement (.ld_SP_d16 d16) := of_ble rfl rfl rfl
theorem inc_atHL : Statement .inc_atHL := of_ble rfl rfl rfl
theorem dec_atHL : Statement .dec_atHL := of_ble rfl rfl rfl
theorem jr_C_e8 (e8 : Byte) : Statement (.jr_C_e8 e8) := of_ble rfl rfl rfl
theorem inc_A : Statement .inc_A := of_ble rfl rfl rfl
theorem dec_A : Statement .dec_A := of_ble rfl rfl rfl
theorem ld_A_d8 (d8 : Byte) : Statement (.ld_A_d8 d8) := of_ble rfl rfl rfl
theorem ld_B_B : Statement .ld_B_B := of_ble rfl rfl rfl
theorem ld_B_C : Statement .ld_B_C := of_ble rfl rfl rfl
theorem ld_B_D : Statement .ld_B_D := of_ble rfl rfl rfl
theorem ld_B_E : Statement .ld_B_E := of_ble rfl rfl rfl
theorem ld_B_H : Statement .ld_B_H := of_ble rfl rfl rfl
theorem ld_B_L : Statement .ld_B_L := of_ble rfl rfl rfl
theorem ld_B_atHL : Statement .ld_B_atHL := of_ble rfl rfl rfl
theorem ld_B_A : Statement .ld_B_A := of_ble rfl rfl rfl
theorem ld_C_B : Statement .ld_C_B := of_ble rfl rfl rfl
theorem ld_C_C : Statement .ld_C_C := of_ble rfl rfl rfl
theorem ld_C_D : Statement .ld_C_D := of_ble rfl rfl rfl
theorem ld_C_E : Statement .ld_C_E := of_ble rfl rfl rfl
theorem ld_C_H : Statement .ld_C_H := of_ble rfl rfl rfl
theorem ld_C_L : Statement .ld_C_L := of_ble rfl rfl rfl
theorem ld_C_atHL : Statement .ld_C_atHL := of_ble rfl rfl rfl
theorem ld_C_A : Statement .ld_C_A := of_ble rfl rfl rfl
theorem ld_D_B : Statement .ld_D_B := of_ble rfl rfl rfl
theorem ld_D_C : Statement .ld_D_C := of_ble rfl rfl rfl
theorem ld_D_D : Statement .ld_D_D := of_ble rfl rfl rfl
theorem ld_D_E : Statement .ld_D_E := of_ble rfl rfl rfl
theorem ld_D_H : Statement .ld_D_H := of_ble rfl rfl rfl
theorem ld_D_L : Statement .ld_D_L := of_ble rfl rfl rfl
theorem ld_D_atHL : Statement .ld_D_atHL := of_ble rfl rfl rfl
theorem ld_D_A : Statement .ld_D_A := of_ble rfl rfl rfl
theorem ld_E_B : Statement .ld_E_B := of_ble rfl rfl rfl
theorem ld_E_C : Statement .ld_E_C := of_ble rfl rfl rfl
theorem ld_E_D : Statement .ld_E_D := of_ble rfl rfl rfl
theorem ld_E_E : Statement .ld_E_E := of_ble rfl rfl rfl
theorem ld_E_H : Statement .ld_E_H := of_ble rfl rfl rfl
theorem ld_E_L : Statement .ld_E_L := of_ble rfl rfl rfl
theorem ld_E_atHL : Statement .ld_E_atHL := of_ble rfl rfl rfl
theorem ld_E_A : Statement .ld_E_A := of_ble rfl rfl rfl
theorem ld_H_B : Statement .ld_H_B := of_ble rfl rfl rfl
theorem ld_H_C : Statement .ld_H_C := of_ble rfl rfl rfl
theorem ld_H_D : Statement .ld_H_D := of_ble rfl rfl rfl
theorem ld_H_E : Statement .ld_H_E := of_ble rfl rfl rfl
theorem ld_H_H : Statement .ld_H_H := of_ble rfl rfl rfl
theorem ld_H_L : Statement .ld_H_L := of_ble rfl rfl rfl
theorem ld_H_atHL : Statement .ld_H_atHL := of_ble rfl rfl rfl
theorem ld_H_A : Statement .ld_H_A := of_ble rfl rfl rfl
theorem ld_L_B : Statement .ld_L_B := of_ble rfl rfl rfl
theorem ld_L_C : Statement .ld_L_C := of_ble rfl rfl rfl
theorem ld_L_D : Statement .ld_L_D := of_ble rfl rfl rfl
theorem ld_L_E : Statement .ld_L_E := of_ble rfl rfl rfl
theorem ld_L_H : Statement .ld_L_H := of_ble rfl rfl rfl
theorem ld_L_L : Statement .ld_L_L := of_ble rfl rfl rfl
theorem ld_L_atHL : Statement .ld_L_atHL := of_ble rfl rfl rfl
theorem ld_L_A : Statement .ld_L_A := of_ble rfl rfl rfl
theorem ld_atHL_B : Statement .ld_atHL_B := of_ble rfl rfl rfl
theorem ld_atHL_C : Statement .ld_atHL_C := of_ble rfl rfl rfl
theorem ld_atHL_D : Statement .ld_atHL_D := of_ble rfl rfl rfl
theorem ld_atHL_E : Statement .ld_atHL_E := of_ble rfl rfl rfl
theorem ld_atHL_H : Statement .ld_atHL_H := of_ble rfl rfl rfl
theorem ld_atHL_L : Statement .ld_atHL_L := of_ble rfl rfl rfl
theorem ld_atHL_atHL : Statement .ld_atHL_atHL := of_ble rfl rfl rfl
theorem ld_atHL_A : Statement .ld_atHL_A := of_ble rfl rfl rfl
theorem ld_A_B : Statement .ld_A_B := of_ble rfl rfl rfl
theorem ld_A_C : Statement .ld_A_C := of_ble rfl rfl rfl
theorem ld_A_D : Statement .ld_A_D := of_ble rfl rfl rfl
theorem ld_A_E : Statement .ld_A_E := of_ble rfl rfl rfl
theorem ld_A_H : Statement .ld_A_H := of_ble rfl rfl rfl
theorem ld_A_L : Statement .ld_A_L := of_ble rfl rfl rfl
theorem ld_A_atHL : Statement .ld_A_atHL := of_ble rfl rfl rfl
theorem ld_A_A : Statement .ld_A_A := of_ble rfl rfl rfl
theorem add_A_B : Statement .add_A_B := of_ble rfl rfl rfl
theorem add_A_C : Statement .add_A_C := of_ble rfl rfl rfl
theorem add_A_D : Statement .add_A_D := of_ble rfl rfl rfl
theorem add_A_E : Statement .add_A_E := of_ble rfl rfl rfl
theorem add_A_H : Statement .add_A_H := of_ble rfl rfl rfl
theorem add_A_L : Statement .add_A_L := of_ble rfl rfl rfl
theorem add_A_atHL : Statement .add_A_atHL := of_ble rfl rfl rfl
theorem add_A_A : Statement .add_A_A := of_ble rfl rfl rfl
theorem sub_B : Statement .sub_B := of_ble rfl rfl rfl
theorem sub_C : Statement .sub_C := of_ble rfl rfl rfl
theorem sub_D : Statement .sub_D := of_ble rfl rfl rfl
theorem sub_E : Statement .sub_E := of_ble rfl rfl rfl
theorem sub_H : Statement .sub_H := of_ble rfl rfl rfl
theorem sub_L : Statement .sub_L := of_ble rfl rfl rfl
theorem sub_atHL : Statement .sub_atHL := of_ble rfl rfl rfl
theorem sub_A : Statement .sub_A := of_ble rfl rfl rfl
theorem xor_B : Statement .xor_B := of_ble rfl rfl rfl
theorem xor_C : Statement .xor_C := of_ble rfl rfl rfl
theorem xor_D : Statement .xor_D := of_ble rfl rfl rfl
theorem xor_E : Statement .xor_E := of_ble rfl rfl rfl
theorem xor_H : Statement .xor_H := of_ble rfl rfl rfl
theorem xor_L : Statement .xor_L := of_ble rfl rfl rfl
theorem xor_atHL : Statement .xor_atHL := of_ble rfl rfl rfl
theorem xor_A : Statement .xor_A := of_ble rfl rfl rfl
theorem cp_B : Statement .cp_B := of_ble rfl rfl rfl
theorem cp_C : Statement .cp_C := of_ble rfl rfl rfl
theorem cp_D : Statement .cp_D := of_ble rfl rfl rfl
theorem cp_E : Statement .cp_E := of_ble rfl rfl rfl
theorem cp_H : Statement .cp_H := of_ble rfl rfl rfl
theorem cp_L : Statement .cp_L := of_ble rfl rfl rfl
theorem cp_atHL : Statement .cp_atHL := of_ble rfl rfl rfl
theorem cp_A : Statement .cp_A := of_ble rfl rfl rfl
theorem pop_BC : Statement .pop_BC := of_ble rfl rfl rfl
theorem push_BC : Statement .push_BC := of_ble rfl rfl rfl
theorem add_A_d8 (d8 : Byte) : Statement (.add_A_d8 d8) := of_ble rfl rfl rfl
theorem ret : Statement .ret := of_ble rfl rfl rfl
theorem call_a16 (a16 : Word) : Statement (.call_a16 a16) := of_ble rfl rfl rfl
theorem pop_DE : Statement .pop_DE := of_ble rfl rfl rfl
theorem push_DE : Statement .push_DE := of_ble rfl rfl rfl
theorem sub_d8 (d8 : Byte) : Statement (.sub_d8 d8) := of_ble rfl rfl rfl
theorem ldh_atA8_A (a8 : Byte) : Statement (.ldh_atA8_A a8) := of_ble rfl rfl rfl
theorem pop_HL : Statement .pop_HL := of_ble rfl rfl rfl
theorem ld_atC_A : Statement .ld_atC_A := of_ble rfl rfl rfl
theorem push_HL : Statement .push_HL := of_ble rfl rfl rfl
theorem ld_atA16_A (a16 : Word) : Statement (.ld_atA16_A a16) := of_ble rfl rfl rfl
theorem ldh_A_atA8 (a8 : Byte) : Statement (.ldh_A_atA8 a8) := of_ble rfl rfl rfl
theorem pop_AF : Statement .pop_AF := of_ble rfl rfl rfl
theorem ld_A_atC : Statement .ld_A_atC := of_ble rfl rfl rfl
theorem push_AF : Statement .push_AF := of_ble rfl rfl rfl
theorem ld_A_atA16 (a16 : Word) : Statement (.ld_A_atA16 a16) := of_ble rfl rfl rfl
theorem cp_d8 (d8 : Byte) : Statement (.cp_d8 d8) := of_ble rfl rfl rfl
theorem rl_B : Statement .rl_B := of_ble rfl rfl rfl
theorem rl_C : Statement .rl_C := of_ble rfl rfl rfl
theorem rl_D : Statement .rl_D := of_ble rfl rfl rfl
theorem rl_E : Statement .rl_E := of_ble rfl rfl rfl
theorem rl_H : Statement .rl_H := of_ble rfl rfl rfl
theorem rl_L : Statement .rl_L := of_ble rfl rfl rfl
theorem rl_atHL : Statement .rl_atHL := of_ble rfl rfl rfl
theorem rl_A : Statement .rl_A := of_ble rfl rfl rfl
theorem bit7_B : Statement .bit7_B := of_ble rfl rfl rfl
theorem bit7_C : Statement .bit7_C := of_ble rfl rfl rfl
theorem bit7_D : Statement .bit7_D := of_ble rfl rfl rfl
theorem bit7_E : Statement .bit7_E := of_ble rfl rfl rfl
theorem bit7_H : Statement .bit7_H := of_ble rfl rfl rfl
theorem bit7_L : Statement .bit7_L := of_ble rfl rfl rfl
theorem bit7_atHL : Statement .bit7_atHL := of_ble rfl rfl rfl
theorem bit7_A : Statement .bit7_A := of_ble rfl rfl rfl

end Sys2Proof.Laws.Encoding
end

