-- ==== Sys2Proof/Tests/Slice0.lean ====
section
/-! SUPPORT. The model's own tests: well-formedness, decoding of words written out from 30_encoding, one step per vector of
95_test_vectors, and a witness for the hypotheses of each obligation. -/

namespace Sys2Proof.Tests

open Sys2Proof Sys2Proof.Machine Sys2Proof.Safety

/-! ### Helpers -/

/-- The memory that holds these bytes and is 0 elsewhere. -/
def cells (l : List (Nat × Byte)) : Memory := l.foldl (fun m p => m.write p.1 p.2) []

/-- The common start state of 95_test_vectors section 2: everything 0, the overlay disabled, PC at 0xC100. -/
def start : State := { State.reset with bootRomEnabled := false, pc := 0xC100 }

/-- The state with an instruction's bytes at PC and these other bytes in memory, written after them. -/
def ram (s : State) (code : List Byte) (l : List (Nat × Byte)) : State :=
  { s with mem := l.foldl (fun m p => m.write p.1 p.2) (placeBytes s s.pc code).mem }

/-- The answer is this next state. -/
def nextIs (o : StepResult) (t : State) : Bool :=
  match o with
  | .next u => decide (u = t)
  | .fault _ => false
  | .refused _ => false

/-- The answer is this condition, recorded in the state `t`. -/
def faultIs (o : StepResult) (c : FatalCondition) (t : State) : Bool :=
  match o with
  | .next _ => false
  | .fault r => decide (conditionOf r = c ∧ finalState r = some { t with fault := some c })
  | .refused _ => false

/-- The read yields this byte and changes nothing. -/
def readIs (a : Word) (s : State) (v : Byte) : Bool :=
  match memRead a s with
  | .ok w t => decide (w = v ∧ t = s)
  | .fault _ => false

/-- The access is illegal and changes nothing. -/
def illegalIs {α : Type} (r : Res α) (a : Word) (k : Access) (s : State) : Bool :=
  faultIs r.done (.illegalMemoryAccess a k) s

/-- The write stores the byte, leaves the overlay as given, and changes nothing else. -/
def writeIs (a : Word) (s : State) (v : Byte) (overlay : Bool) : Bool :=
  match memWrite a v s with
  | .ok _ t => decide (t = { s with mem := s.mem.write a.toNat v, bootRomEnabled := overlay })
  | .fault _ => false

/-- Each word decodes to its instruction and nothing is left over. -/
def decodesTo (l : List (List Byte × Instr)) : Bool :=
  l.all fun p => decide (decode p.1 = .ok p.2 [])

/-! ### Well-formedness: each check refuses an ill-formed term (30_encoding R95, R97) -/

theorem test_wf_ld_imm : (Form.ldImm .b 1).wellFormed = true ∧ (Form.ldImm .atHL 1).wellFormed = false := by decide

theorem test_wf_inc_pair : (Form.incPair .hl).wellFormed = true ∧ (Form.incPair .sp).wellFormed = false := by decide

theorem test_wf_dec_pair : (Form.decPair .hl).wellFormed = true ∧ (Form.decPair .sp).wellFormed = false := by decide

theorem test_wf_xor_imm :
    (Form.alu .xor (.slot .a)).wellFormed = true ∧ (Form.alu .xor (.imm 1)).wellFormed = false := by decide

theorem test_wf_primary : primaryAdmitted 0x01 = true ∧ primaryAdmitted 0x00 = false ∧ primaryAdmitted 0x33 = false ∧
    primaryAdmitted 0x36 = false ∧ primaryAdmitted 0x88 = false ∧ primaryAdmitted 0xEE = false := by decide

theorem test_wf_extended : extendedAdmitted 0x10 = true ∧ extendedAdmitted 0x7F = true ∧ extendedAdmitted 0x00 = false ∧
    extendedAdmitted 0x77 = false := by decide

/-! ### Decoding: every row's word, from the encoding column of the opcode table -/

theorem test_decode_load_pair : decodesTo [
    ([0b00000001#8, 0b11001101#8, 0b10101011#8], .ld_BC_d16 0xABCD),
    ([0b00010001#8, 0b11001101#8, 0b10101011#8], .ld_DE_d16 0xABCD),
    ([0b00100001#8, 0b11001101#8, 0b10101011#8], .ld_HL_d16 0xABCD),
    ([0b00110001#8, 0b11001101#8, 0b10101011#8], .ld_SP_d16 0xABCD)] = true := by decide

theorem test_decode_pair : decodesTo [
    ([0b00000011#8], .inc_BC), ([0b00001011#8], .dec_BC), ([0b00010011#8], .inc_DE), ([0b00011011#8], .dec_DE),
    ([0b00100011#8], .inc_HL), ([0b00101011#8], .dec_HL)] = true := by decide

theorem test_decode_inc : decodesTo [
    ([0b00000100#8], .inc_B), ([0b00001100#8], .inc_C), ([0b00010100#8], .inc_D), ([0b00011100#8], .inc_E),
    ([0b00100100#8], .inc_H), ([0b00101100#8], .inc_L), ([0b00110100#8], .inc_atHL),
    ([0b00111100#8], .inc_A)] = true := by decide

theorem test_decode_dec : decodesTo [
    ([0b00000101#8], .dec_B), ([0b00001101#8], .dec_C), ([0b00010101#8], .dec_D), ([0b00011101#8], .dec_E),
    ([0b00100101#8], .dec_H), ([0b00101101#8], .dec_L), ([0b00110101#8], .dec_atHL),
    ([0b00111101#8], .dec_A)] = true := by decide

theorem test_decode_load_byte : decodesTo [
    ([0b00000110#8, 0b10100101#8], .ld_B_d8 0xA5), ([0b00001110#8, 0b10100101#8], .ld_C_d8 0xA5),
    ([0b00010110#8, 0b10100101#8], .ld_D_d8 0xA5), ([0b00011110#8, 0b10100101#8], .ld_E_d8 0xA5),
    ([0b00100110#8, 0b10100101#8], .ld_H_d8 0xA5), ([0b00101110#8, 0b10100101#8], .ld_L_d8 0xA5),
    ([0b00111110#8, 0b10100101#8], .ld_A_d8 0xA5)] = true := by decide

theorem test_decode_extended : decodesTo [
    ([0b00010111#8], .rla), ([0b11001011#8, 0b00010000#8], .rl_B), ([0b11001011#8, 0b00010001#8], .rl_C),
    ([0b11001011#8, 0b00010010#8], .rl_D), ([0b11001011#8, 0b00010011#8], .rl_E),
    ([0b11001011#8, 0b00010100#8], .rl_H), ([0b11001011#8, 0b00010101#8], .rl_L),
    ([0b11001011#8, 0b00010110#8], .rl_atHL), ([0b11001011#8, 0b00010111#8], .rl_A),
    ([0b11001011#8, 0b01111000#8], .bit7_B), ([0b11001011#8, 0b01111001#8], .bit7_C),
    ([0b11001011#8, 0b01111010#8], .bit7_D), ([0b11001011#8, 0b01111011#8], .bit7_E),
    ([0b11001011#8, 0b01111100#8], .bit7_H), ([0b11001011#8, 0b01111101#8], .bit7_L),
    ([0b11001011#8, 0b01111110#8], .bit7_atHL), ([0b11001011#8, 0b01111111#8], .bit7_A)] = true := by decide

theorem test_decode_jump : decodesTo [
    ([0b00011000#8, 0b10100101#8], .jr_e8 0xA5), ([0b00100000#8, 0b10100101#8], .jr_NZ_e8 0xA5),
    ([0b00101000#8, 0b10100101#8], .jr_Z_e8 0xA5), ([0b00110000#8, 0b10100101#8], .jr_NC_e8 0xA5),
    ([0b00111000#8, 0b10100101#8], .jr_C_e8 0xA5), ([0b11001001#8], .ret),
    ([0b11001101#8, 0b11001101#8, 0b10101011#8], .call_a16 0xABCD)] = true := by decide

theorem test_decode_move_b : decodesTo [
    ([0b01000000#8], .ld_B_B), ([0b01000001#8], .ld_B_C), ([0b01000010#8], .ld_B_D), ([0b01000011#8], .ld_B_E),
    ([0b01000100#8], .ld_B_H), ([0b01000101#8], .ld_B_L), ([0b01000110#8], .ld_B_atHL),
    ([0b01000111#8], .ld_B_A)] = true := by decide

theorem test_decode_move_c : decodesTo [
    ([0b01001000#8], .ld_C_B), ([0b01001001#8], .ld_C_C), ([0b01001010#8], .ld_C_D), ([0b01001011#8], .ld_C_E),
    ([0b01001100#8], .ld_C_H), ([0b01001101#8], .ld_C_L), ([0b01001110#8], .ld_C_atHL),
    ([0b01001111#8], .ld_C_A)] = true := by decide

theorem test_decode_move_d : decodesTo [
    ([0b01010000#8], .ld_D_B), ([0b01010001#8], .ld_D_C), ([0b01010010#8], .ld_D_D), ([0b01010011#8], .ld_D_E),
    ([0b01010100#8], .ld_D_H), ([0b01010101#8], .ld_D_L), ([0b01010110#8], .ld_D_atHL),
    ([0b01010111#8], .ld_D_A)] = true := by decide

theorem test_decode_move_e : decodesTo [
    ([0b01011000#8], .ld_E_B), ([0b01011001#8], .ld_E_C), ([0b01011010#8], .ld_E_D), ([0b01011011#8], .ld_E_E),
    ([0b01011100#8], .ld_E_H), ([0b01011101#8], .ld_E_L), ([0b01011110#8], .ld_E_atHL),
    ([0b01011111#8], .ld_E_A)] = true := by decide

theorem test_decode_move_h : decodesTo [
    ([0b01100000#8], .ld_H_B), ([0b01100001#8], .ld_H_C), ([0b01100010#8], .ld_H_D), ([0b01100011#8], .ld_H_E),
    ([0b01100100#8], .ld_H_H), ([0b01100101#8], .ld_H_L), ([0b01100110#8], .ld_H_atHL),
    ([0b01100111#8], .ld_H_A)] = true := by decide

theorem test_decode_move_l : decodesTo [
    ([0b01101000#8], .ld_L_B), ([0b01101001#8], .ld_L_C), ([0b01101010#8], .ld_L_D), ([0b01101011#8], .ld_L_E),
    ([0b01101100#8], .ld_L_H), ([0b01101101#8], .ld_L_L), ([0b01101110#8], .ld_L_atHL),
    ([0b01101111#8], .ld_L_A)] = true := by decide

theorem test_decode_move_hl : decodesTo [
    ([0b01110000#8], .ld_atHL_B), ([0b01110001#8], .ld_atHL_C), ([0b01110010#8], .ld_atHL_D),
    ([0b01110011#8], .ld_atHL_E), ([0b01110100#8], .ld_atHL_H), ([0b01110101#8], .ld_atHL_L),
    ([0b01110110#8], .ld_atHL_atHL), ([0b01110111#8], .ld_atHL_A)] = true := by decide

theorem test_decode_move_a : decodesTo [
    ([0b01111000#8], .ld_A_B), ([0b01111001#8], .ld_A_C), ([0b01111010#8], .ld_A_D), ([0b01111011#8], .ld_A_E),
    ([0b01111100#8], .ld_A_H), ([0b01111101#8], .ld_A_L), ([0b01111110#8], .ld_A_atHL),
    ([0b01111111#8], .ld_A_A)] = true := by decide

theorem test_decode_alu_add : decodesTo [
    ([0b10000000#8], .add_A_B), ([0b10000001#8], .add_A_C), ([0b10000010#8], .add_A_D), ([0b10000011#8], .add_A_E),
    ([0b10000100#8], .add_A_H), ([0b10000101#8], .add_A_L), ([0b10000110#8], .add_A_atHL), ([0b10000111#8], .add_A_A),
    ([0b11000110#8, 0b10100101#8], .add_A_d8 0xA5)] = true := by decide

theorem test_decode_alu_sub : decodesTo [
    ([0b10010000#8], .sub_B), ([0b10010001#8], .sub_C), ([0b10010010#8], .sub_D), ([0b10010011#8], .sub_E),
    ([0b10010100#8], .sub_H), ([0b10010101#8], .sub_L), ([0b10010110#8], .sub_atHL), ([0b10010111#8], .sub_A),
    ([0b11010110#8, 0b10100101#8], .sub_d8 0xA5)] = true := by decide

theorem test_decode_alu_xor : decodesTo [
    ([0b10101000#8], .xor_B), ([0b10101001#8], .xor_C), ([0b10101010#8], .xor_D), ([0b10101011#8], .xor_E),
    ([0b10101100#8], .xor_H), ([0b10101101#8], .xor_L), ([0b10101110#8], .xor_atHL),
    ([0b10101111#8], .xor_A)] = true := by decide

theorem test_decode_alu_cp : decodesTo [
    ([0b10111000#8], .cp_B), ([0b10111001#8], .cp_C), ([0b10111010#8], .cp_D), ([0b10111011#8], .cp_E),
    ([0b10111100#8], .cp_H), ([0b10111101#8], .cp_L), ([0b10111110#8], .cp_atHL), ([0b10111111#8], .cp_A),
    ([0b11111110#8, 0b10100101#8], .cp_d8 0xA5)] = true := by decide

theorem test_decode_stack : decodesTo [
    ([0b11000001#8], .pop_BC), ([0b11000101#8], .push_BC), ([0b11010001#8], .pop_DE), ([0b11010101#8], .push_DE),
    ([0b11100001#8], .pop_HL), ([0b11100101#8], .push_HL), ([0b11110001#8], .pop_AF),
    ([0b11110101#8], .push_AF)] = true := by decide

theorem test_decode_window : decodesTo [
    ([0b11100000#8, 0b10100101#8], .ldh_atA8_A 0xA5), ([0b11100010#8], .ld_atC_A),
    ([0b11101010#8, 0b11001101#8, 0b10101011#8], .ld_atA16_A 0xABCD),
    ([0b11110000#8, 0b10100101#8], .ldh_A_atA8 0xA5), ([0b11110010#8], .ld_A_atC),
    ([0b11111010#8, 0b11001101#8, 0b10101011#8], .ld_A_atA16 0xABCD)] = true := by decide

theorem test_decode_unlisted : decode [0x00] = .unlisted .primary 0x00 ∧ decode [0x36, 0xAA] = .unlisted .primary 0x36 ∧
    decode [0xCB, 0x77] = .unlisted .extended 0x77 ∧ decode [0x01, 0x02] = .truncated := by decide

theorem test_table_word : decodeTableWord 8 0x01 = some (.ld_BC_d16 0) ∧
    decodeTableWord 24 0xABCD01 = some (.ld_BC_d16 0xABCD) ∧ decodeTableWord 16 0x7CCB = some .bit7_H ∧
    decodeTableWord 8 0x00 = none := by decide

theorem test_fetch_word_at_reset :
    nextIs (step (State.reset.withFetchWord 24 0xABCD01))
      { State.reset.withFetchWord 24 0xABCD01 with b := 0xAB, c := 0xCD, pc := 3 } = true := by decide

theorem test_fetch_word_in_ram :
    nextIs (step ({ start with pc := 0xFF44 }.withFetchWord 8 0x3C))
      { start.withFetchWord 8 0x3C with mem := cells [(0xC000, 0x3C)], a := 1, f := 0, pc := 0xC001 } = true := by
  decide

/-! ### 2.1 Increment and decrement (42_incdec.md) -/

/-- INC A at 0xFF, C set (42_incdec R160). -/
theorem test_inc_A :
    nextIs (step { ram start [0x3C] [] with a := 0xFF, f := 0x10 })
      { ram start [0x3C] [] with a := 0x00, f := 0xB0, pc := 0xC101 } = true := by decide

/-- INC A half-carry (42_incdec R160). -/
theorem test_inc_A_2 :
    nextIs (step { ram start [0x3C] [] with a := 0x0F, f := 0x00 })
      { ram start [0x3C] [] with a := 0x10, f := 0x20, pc := 0xC101 } = true := by decide

/-- INC B clears N, keeps C (42_incdec R160). -/
theorem test_inc_B :
    nextIs (step { ram start [0x04] [] with b := 0x00, f := 0x50 })
      { ram start [0x04] [] with b := 0x01, f := 0x10, pc := 0xC101 } = true := by decide

/-- DEC A at 0x00 (42_incdec R161). -/
theorem test_dec_A :
    nextIs (step { ram start [0x3D] [] with a := 0x00, f := 0x00 })
      { ram start [0x3D] [] with a := 0xFF, f := 0x60, pc := 0xC101 } = true := by decide

/-- DEC B to zero, C kept (42_incdec R161). -/
theorem test_dec_B :
    nextIs (step { ram start [0x05] [] with b := 0x01, f := 0x10 })
      { ram start [0x05] [] with b := 0x00, f := 0xD0, pc := 0xC101 } = true := by decide

/-- DEC C borrow from bit 4 (42_incdec R161). -/
theorem test_dec_C :
    nextIs (step { ram start [0x0D] [] with c := 0x10, f := 0x00 })
      { ram start [0x0D] [] with c := 0x0F, f := 0x60, pc := 0xC101 } = true := by decide

/-- INC (HL) wraps (42_incdec R162). -/
theorem test_inc_atHL :
    nextIs (step { ram start [0x34] [(0xC000, 0xFF)] with h := 0xC0, l := 0x00, f := 0x00 })
      { ram start [0x34] [(0xC000, 0x00)] with h := 0xC0, l := 0x00, f := 0xA0, pc := 0xC101 } = true := by decide

/-- DEC (HL) wraps (42_incdec R163). -/
theorem test_dec_atHL :
    nextIs (step { ram start [0x35] [(0xC000, 0x00)] with h := 0xC0, l := 0x00, f := 0x00 })
      { ram start [0x35] [(0xC000, 0xFF)] with h := 0xC0, l := 0x00, f := 0x60, pc := 0xC101 } = true := by decide

/-- INC (HL) at 0xFF44: read 0x90 then illegal write (42_incdec R162). -/
theorem test_inc_atHL_2 :
    faultIs (step { ram start [0x34] [] with h := 0xFF, l := 0x44, f := 0x00 })
      (.illegalMemoryAccess 0xFF44 .write)
      { ram start [0x34] [] with h := 0xFF, l := 0x44, f := 0x00, pc := 0xC101 } = true := by decide

/-- DEC (HL) in the unmodeled band: read faults (42_incdec R163). -/
theorem test_dec_atHL_2 :
    faultIs (step { ram start [0x35] [] with h := 0xFF, l := 0x00, f := 0x00 })
      (.illegalMemoryAccess 0xFF00 .read)
      { ram start [0x35] [] with h := 0xFF, l := 0x00, f := 0x00, pc := 0xC101 } = true := by decide

/-- INC BC wraps, no flags (42_incdec R164). -/
theorem test_inc_BC :
    nextIs (step { ram start [0x03] [] with b := 0xFF, c := 0xFF, f := 0x00 })
      { ram start [0x03] [] with b := 0x00, c := 0x00, f := 0x00, pc := 0xC101 } = true := by decide

/-- INC HL carries into H, F kept (42_incdec R164). -/
theorem test_inc_HL :
    nextIs (step { ram start [0x23] [] with h := 0x00, l := 0xFF, f := 0xF0 })
      { ram start [0x23] [] with h := 0x01, l := 0x00, f := 0xF0, pc := 0xC101 } = true := by decide

/-- DEC DE wraps (42_incdec R165). -/
theorem test_dec_DE :
    nextIs (step { ram start [0x1B] [] with d := 0x00, e := 0x00, f := 0x00 })
      { ram start [0x1B] [] with d := 0xFF, e := 0xFF, f := 0x00, pc := 0xC101 } = true := by decide

/-- DEC BC to zero sets no Z (42_incdec R165). -/
theorem test_dec_BC :
    nextIs (step { ram start [0x0B] [] with b := 0x00, c := 0x01, f := 0x00 })
      { ram start [0x0B] [] with b := 0x00, c := 0x00, f := 0x00, pc := 0xC101 } = true := by decide

/-! ### 2.2 Add, subtract, compare, exclusive-or (43_alu.md) -/

/-- ADD A,B: source example (43_alu R170). -/
theorem test_add_A_B :
    nextIs (step { ram start [0x80] [] with a := 0xFF, b := 0x01 })
      { ram start [0x80] [] with a := 0x00, b := 0x01, f := 0xB0, pc := 0xC101 } = true := by decide

/-- ADD A,A: carry, zero (43_alu R170). -/
theorem test_add_A_A :
    nextIs (step { ram start [0x87] [] with a := 0x80 })
      { ram start [0x87] [] with a := 0x00, f := 0x90, pc := 0xC101 } = true := by decide

/-- ADD A,A: carry and half (43_alu R170). -/
theorem test_add_A_A_2 :
    nextIs (step { ram start [0x87] [] with a := 0x88 })
      { ram start [0x87] [] with a := 0x10, f := 0x30, pc := 0xC101 } = true := by decide

/-- ADD A,C: 0x3A+0xC6 (43_alu R170). -/
theorem test_add_A_C :
    nextIs (step { ram start [0x81] [] with a := 0x3A, c := 0xC6 })
      { ram start [0x81] [] with a := 0x00, c := 0xC6, f := 0xB0, pc := 0xC101 } = true := by decide

/-- ADD A,(HL): half-carry only (43_alu R171). -/
theorem test_add_A_atHL :
    nextIs (step { ram start [0x86] [(0xC000, 0x01)] with a := 0x0F, h := 0xC0, l := 0x00 })
      { ram start [0x86] [(0xC000, 0x01)] with a := 0x10, h := 0xC0, l := 0x00, f := 0x20, pc := 0xC101 } = true :=
    by decide

/-- ADD A,0x10: carry, zero (43_alu R172). -/
theorem test_add_A_d8 :
    nextIs (step { ram start [0xC6, 0x10] [] with a := 0xF0, f := 0x00 })
      { ram start [0xC6, 0x10] [] with a := 0x00, f := 0x90, pc := 0xC102 } = true := by decide

/-- ADD A,0x00: Z set, H and C cleared (43_alu R172). -/
theorem test_add_A_d8_2 :
    nextIs (step { ram start [0xC6, 0x00] [] with a := 0x00, f := 0x30 })
      { ram start [0xC6, 0x00] [] with a := 0x00, f := 0x80, pc := 0xC102 } = true := by decide

/-- SUB B equal (43_alu R173). -/
theorem test_sub_B :
    nextIs (step { ram start [0x90] [] with a := 0x05, b := 0x05 })
      { ram start [0x90] [] with a := 0x00, b := 0x05, f := 0xC0, pc := 0xC101 } = true := by decide

/-- SUB B borrow (43_alu R173). -/
theorem test_sub_B_2 :
    nextIs (step { ram start [0x90] [] with a := 0x00, b := 0x01 })
      { ram start [0x90] [] with a := 0xFF, b := 0x01, f := 0x70, pc := 0xC101 } = true := by decide

/-- SUB C half-borrow (43_alu R173). -/
theorem test_sub_C :
    nextIs (step { ram start [0x91] [] with a := 0x10, c := 0x01 })
      { ram start [0x91] [] with a := 0x0F, c := 0x01, f := 0x60, pc := 0xC101 } = true := by decide

/-- SUB A: always zero (43_alu R173). -/
theorem test_sub_A :
    nextIs (step { ram start [0x97] [] with a := 0x42, f := 0x10 })
      { ram start [0x97] [] with a := 0x00, f := 0xC0, pc := 0xC101 } = true := by decide

/-- SUB (HL) (43_alu R174). -/
theorem test_sub_atHL :
    nextIs (step { ram start [0x96] [(0xC000, 0x21)] with a := 0x20, h := 0xC0, l := 0x00 })
      { ram start [0x96] [(0xC000, 0x21)] with a := 0xFF, h := 0xC0, l := 0x00, f := 0x70, pc := 0xC101 } = true :=
    by decide

/-- SUB 0x0F (43_alu R175). -/
theorem test_sub_d8 :
    nextIs (step { ram start [0xD6, 0x0F] [] with a := 0x3E })
      { ram start [0xD6, 0x0F] [] with a := 0x2F, f := 0x60, pc := 0xC102 } = true := by decide

/-- CP 0x05: source example (43_alu R178). -/
theorem test_cp_d8 :
    nextIs (step { ram start [0xFE, 0x05] [] with a := 0x05 })
      { ram start [0xFE, 0x05] [] with a := 0x05, f := 0xC0, pc := 0xC102 } = true := by decide

/-- CP B: A smaller (43_alu R176). -/
theorem test_cp_B :
    nextIs (step { ram start [0xB8] [] with a := 0x10, b := 0x20 })
      { ram start [0xB8] [] with a := 0x10, b := 0x20, f := 0x50, pc := 0xC101 } = true := by decide

/-- CP A (43_alu R176). -/
theorem test_cp_A :
    nextIs (step { ram start [0xBF] [] with a := 0x9C })
      { ram start [0xBF] [] with a := 0x9C, f := 0xC0, pc := 0xC101 } = true := by decide

/-- CP (HL) at 0xFF44 (reads 0x90) (43_alu R177). -/
theorem test_cp_atHL :
    nextIs (step { ram start [0xBE] [] with a := 0x40, h := 0xFF, l := 0x44 })
      { ram start [0xBE] [] with a := 0x40, h := 0xFF, l := 0x44, f := 0x50, pc := 0xC101 } = true := by decide

/-- XOR A (43_alu R179). -/
theorem test_xor_A :
    nextIs (step { ram start [0xAF] [] with a := 0x5A, f := 0x70 })
      { ram start [0xAF] [] with a := 0x00, f := 0x80, pc := 0xC101 } = true := by decide

/-- XOR B (43_alu R179). -/
theorem test_xor_B :
    nextIs (step { ram start [0xA8] [] with a := 0xF0, b := 0x0F, f := 0x70 })
      { ram start [0xA8] [] with a := 0xFF, b := 0x0F, f := 0x00, pc := 0xC101 } = true := by decide

/-- XOR (HL) (43_alu R180). -/
theorem test_xor_atHL :
    nextIs (step { ram start [0xAE] [(0xC000, 0xFF)] with a := 0xFF, h := 0xC0, l := 0x00 })
      { ram start [0xAE] [(0xC000, 0xFF)] with a := 0x00, h := 0xC0, l := 0x00, f := 0x80, pc := 0xC101 } = true :=
    by decide

/-! ### 2.3 Loads and moves (41_loads.md) -/

/-- LD BC,0xABCD: low byte first (41_loads R140). -/
theorem test_ld_BC_d16 :
    nextIs (step (ram start [0x01, 0xCD, 0xAB] []))
      { ram start [0x01, 0xCD, 0xAB] [] with b := 0xAB, c := 0xCD, pc := 0xC103 } = true := by decide

/-- LD SP,0xFFFE (41_loads R141). -/
theorem test_ld_SP_d16 :
    nextIs (step (ram start [0x31, 0xFE, 0xFF] []))
      { ram start [0x31, 0xFE, 0xFF] [] with sp := 0xFFFE, pc := 0xC103 } = true := by decide

/-- LD A,0x42: flags kept (41_loads R142). -/
theorem test_ld_A_d8 :
    nextIs (step { ram start [0x3E, 0x42] [] with f := 0xF0 })
      { ram start [0x3E, 0x42] [] with f := 0xF0, a := 0x42, pc := 0xC102 } = true := by decide

/-- LD L,0x00 (41_loads R142). -/
theorem test_ld_L_d8 :
    nextIs (step { ram start [0x2E, 0x00] [] with l := 0x77 })
      { ram start [0x2E, 0x00] [] with l := 0x00, pc := 0xC102 } = true := by decide

/-- LD A,B (41_loads R143). -/
theorem test_ld_A_B :
    nextIs (step { ram start [0x78] [] with a := 0x00, b := 0x99 })
      { ram start [0x78] [] with a := 0x99, b := 0x99, pc := 0xC101 } = true := by decide

/-- LD B,B: no-op (41_loads R143). -/
theorem test_ld_B_B :
    nextIs (step { ram start [0x40] [] with b := 0x12, f := 0xA0 })
      { ram start [0x40] [] with b := 0x12, f := 0xA0, pc := 0xC101 } = true := by decide

/-- LD A,(HL) from 0xFF44 (41_loads R144). -/
theorem test_ld_A_atHL :
    nextIs (step { ram start [0x7E] [] with h := 0xFF, l := 0x44 })
      { ram start [0x7E] [] with h := 0xFF, l := 0x44, a := 0x90, pc := 0xC101 } = true := by decide

/-- LD B,(HL) (41_loads R144). -/
theorem test_ld_B_atHL :
    nextIs (step { ram start [0x46] [(0xC010, 0x3C)] with h := 0xC0, l := 0x10 })
      { ram start [0x46] [(0xC010, 0x3C)] with h := 0xC0, l := 0x10, b := 0x3C, pc := 0xC101 } = true := by decide

/-- LD (HL),A (41_loads R145). -/
theorem test_ld_atHL_A :
    nextIs (step { ram start [0x77] [] with a := 0x55, h := 0xC0, l := 0x00 })
      { ram start [0x77] [(0xC000, 0x55)] with a := 0x55, h := 0xC0, l := 0x00, pc := 0xC101 } = true := by decide

/-- LD (HL),H: stores the high byte of its own address (41_loads R145). -/
theorem test_ld_atHL_H :
    nextIs (step { ram start [0x74] [] with h := 0xC0, l := 0x22 })
      { ram start [0x74] [(0xC022, 0xC0)] with h := 0xC0, l := 0x22, pc := 0xC101 } = true := by decide

/-- LD (HL),B to the latch (41_loads R145). -/
theorem test_ld_atHL_B :
    nextIs (step { ram start [0x70] [] with b := 0x01, h := 0xFF, l := 0x50, bootRomEnabled := true })
      { ram start [0x70] [(0xFF50, 0x01)] with b := 0x01, h := 0xFF, l := 0x50, pc := 0xC101 } = true := by decide

/-- LD (HL),A into the overlay while enabled (41_loads R145). -/
theorem test_ld_atHL_A_2 :
    faultIs (step { ram start [0x77] [] with a := 0x01, h := 0x00, l := 0x10, bootRomEnabled := true })
      (.illegalMemoryAccess 0x0010 .write)
      { ram start [0x77] [] with a := 0x01, h := 0x00, l := 0x10, pc := 0xC101, bootRomEnabled := true } = true :=
    by decide

/-- LD (HL),(HL) (41_loads R146). -/
theorem test_ld_atHL_atHL :
    nextIs (step { ram start [0x76] [(0xC000, 0x9A)] with h := 0xC0, l := 0x00 })
      { ram start [0x76] [(0xC000, 0x9A)] with h := 0xC0, l := 0x00, pc := 0xC101 } = true := by decide

/-- LD (HL),(HL) at 0xFF44: illegal write (41_loads R146). -/
theorem test_ld_atHL_atHL_2 :
    faultIs (step { ram start [0x76] [] with h := 0xFF, l := 0x44 })
      (.illegalMemoryAccess 0xFF44 .write)
      { ram start [0x76] [] with h := 0xFF, l := 0x44, pc := 0xC101 } = true := by decide

/-! ### 2.4 Stack (44_stack.md) -/

/-- PUSH BC (source polarity) (44_stack R190). -/
theorem test_push_BC :
    nextIs (step { ram start [0xC5] [] with b := 0x12, c := 0x34, sp := 0xD000 })
      { ram start [0xC5] [(0xD000, 0x34), (0xD001, 0x12)] with b := 0x12, c := 0x34, sp := 0xCFFE, pc := 0xC101 } = true :=
    by decide

/-- PUSH AF at the top of memory (44_stack R190). -/
theorem test_push_AF :
    nextIs (step { ram start [0xF5] [] with a := 0xAB, f := 0xF0, sp := 0xFFFE })
      { ram start [0xF5] [(0xFFFE, 0xF0), (0xFFFF, 0xAB)] with a := 0xAB, f := 0xF0, sp := 0xFFFC, pc := 0xC101 } = true :=
    by decide

/-- PUSH BC at SP=0xFFFF: high byte wraps to 0x0000 (44_stack R190). -/
theorem test_push_BC_2 :
    nextIs (step { ram start [0xC5] [] with sp := 0xFFFF, b := 0x01, c := 0x02 })
      { ram start [0xC5] [(0xFFFF, 0x02), (0x0000, 0x01)] with sp := 0xFFFD, b := 0x01, c := 0x02, pc := 0xC101 } = true :=
    by decide

/-- PUSH HL at SP=0xFF43: high-byte write to 0xFF44 faults (44_stack R190). -/
theorem test_push_HL :
    faultIs (step { ram start [0xE5] [] with sp := 0xFF43, h := 0x01, l := 0x02 })
      (.illegalMemoryAccess 0xFF44 .write)
      { ram start [0xE5] [(0xFF43, 0x02)] with sp := 0xFF43, h := 0x01, l := 0x02, pc := 0xC101 } = true := by decide

/-- POP DE (44_stack R191). -/
theorem test_pop_DE :
    nextIs (step { ram start [0xD1] [(0xD000, 0x34), (0xD001, 0x12)] with sp := 0xCFFE })
      { ram start [0xD1] [(0xD000, 0x34), (0xD001, 0x12)] with sp := 0xD000, d := 0x12, e := 0x34, pc := 0xC101 } = true :=
    by decide

/-- POP AF masks the low nibble (44_stack R192). -/
theorem test_pop_AF :
    nextIs (step { ram start [0xF1] [(0xD000, 0xFF), (0xD001, 0x80)] with sp := 0xCFFE })
      { ram start [0xF1] [(0xD000, 0xFF), (0xD001, 0x80)] with sp := 0xD000, a := 0x80, f := 0xF0, pc := 0xC101 } = true :=
    by decide

/-- POP BC reading 0xFF00: faults (44_stack R191). -/
theorem test_pop_BC :
    faultIs (step { ram start [0xC1] [] with sp := 0xFEFE })
      (.illegalMemoryAccess 0xFF00 .read)
      { ram start [0xC1] [] with sp := 0xFF00, pc := 0xC101 } = true := by decide

/-! ### 2.5 Jumps, call, return (45_jumps_calls.md) -/

/-- JR -2: self-loop (45_jumps_calls R200). -/
theorem test_jr_e8 :
    nextIs (step (ram { start with pc := 0xC010 } [0x18, 0xFE] []))
      { ram { start with pc := 0xC010 } [0x18, 0xFE] [] with pc := 0xC010 } = true := by decide

/-- JR +5 (45_jumps_calls R200). -/
theorem test_jr_e8_2 :
    nextIs (step (ram { start with pc := 0xC010 } [0x18, 0x05] []))
      { ram { start with pc := 0xC010 } [0x18, 0x05] [] with pc := 0xC017 } = true := by decide

/-- JR NZ taken (45_jumps_calls R201). -/
theorem test_jr_NZ_e8 :
    nextIs (step { ram start [0x20, 0xFA] [] with f := 0x00 })
      { ram start [0x20, 0xFA] [] with f := 0x00, pc := 0xC0FC } = true := by decide

/-- JR NZ not taken (45_jumps_calls R201). -/
theorem test_jr_NZ_e8_2 :
    nextIs (step { ram start [0x20, 0xFA] [] with f := 0x80 })
      { ram start [0x20, 0xFA] [] with f := 0x80, pc := 0xC102 } = true := by decide

/-- JR Z taken (45_jumps_calls R201). -/
theorem test_jr_Z_e8 :
    nextIs (step { ram start [0x28, 0x10] [] with f := 0x80 })
      { ram start [0x28, 0x10] [] with f := 0x80, pc := 0xC112 } = true := by decide

/-- JR NC not taken (45_jumps_calls R201). -/
theorem test_jr_NC_e8 :
    nextIs (step { ram start [0x30, 0x10] [] with f := 0x10 })
      { ram start [0x30, 0x10] [] with f := 0x10, pc := 0xC102 } = true := by decide

/-- JR C taken (45_jumps_calls R201). -/
theorem test_jr_C_e8 :
    nextIs (step { ram start [0x38, 0x10] [] with f := 0x10 })
      { ram start [0x38, 0x10] [] with f := 0x10, pc := 0xC112 } = true := by decide

/-- CALL 0x8000 (45_jumps_calls R202). -/
theorem test_call_a16 :
    nextIs (step { ram start [0xCD, 0x00, 0x80] [] with sp := 0xCFFE })
      { ram start [0xCD, 0x00, 0x80] [(0xCFFE, 0x03), (0xCFFF, 0xC1)] with sp := 0xCFFC, pc := 0x8000 } = true :=
    by decide

/-- RET (45_jumps_calls R203). -/
theorem test_ret :
    nextIs (step { ram start [0xC9] [(0xCFFE, 0x03), (0xCFFF, 0xC1)] with sp := 0xCFFC })
      { ram start [0xC9] [(0xCFFE, 0x03), (0xCFFF, 0xC1)] with sp := 0xCFFE, pc := 0xC103 } = true := by decide

/-- CALL with SP=0 while the overlay is enabled (45_jumps_calls R202). -/
theorem test_call_a16_2 :
    faultIs (step { ram start [0xCD, 0x10, 0x00] [] with sp := 0x0000, bootRomEnabled := true })
      (.illegalMemoryAccess 0x0000 .write)
      { ram start [0xCD, 0x10, 0x00] [] with sp := 0x0000, pc := 0xC103, bootRomEnabled := true } = true := by decide

/-! ### 2.6 High-RAM window and absolute loads (46_highram_absolute.md) -/

/-- LDH (0x50),A disables the overlay (46_highram_absolute R210). -/
theorem test_ldh_atA8_A :
    nextIs (step { ram start [0xE0, 0x50] [] with a := 0x01, bootRomEnabled := true })
      { ram start [0xE0, 0x50] [(0xFF50, 0x01)] with a := 0x01, pc := 0xC102 } = true := by decide

/-- LDH (0x50),A with A=0: stored, overlay stays (46_highram_absolute R210). -/
theorem test_ldh_atA8_A_2 :
    nextIs (step { ram start [0xE0, 0x50] [] with a := 0x00, bootRomEnabled := true })
      { ram start [0xE0, 0x50] [(0xFF50, 0x00)] with a := 0x00, pc := 0xC102, bootRomEnabled := true } = true :=
    by decide

/-- LDH A,(0x44) (46_highram_absolute R211). -/
theorem test_ldh_A_atA8 :
    nextIs (step (ram start [0xF0, 0x44] []))
      { ram start [0xF0, 0x44] [] with a := 0x90, pc := 0xC102 } = true := by decide

/-- LDH A,(0x42): scroll passes through (46_highram_absolute R211). -/
theorem test_ldh_A_atA8_2 :
    nextIs (step (ram start [0xF0, 0x42] [(0xFF42, 0x17)]))
      { ram start [0xF0, 0x42] [(0xFF42, 0x17)] with a := 0x17, pc := 0xC102 } = true := by decide

/-- LD (C),A to a sound register (46_highram_absolute R212). -/
theorem test_ld_atC_A :
    nextIs (step { ram start [0xE2] [] with a := 0x80, c := 0x11 })
      { ram start [0xE2] [(0xFF11, 0x80)] with a := 0x80, c := 0x11, pc := 0xC101 } = true := by decide

/-- LD A,(C) with C=0x44 (46_highram_absolute R213). -/
theorem test_ld_A_atC :
    nextIs (step { ram start [0xF2] [] with c := 0x44 })
      { ram start [0xF2] [] with c := 0x44, a := 0x90, pc := 0xC101 } = true := by decide

/-- LD A,(C) with C=0x7F: unmodeled (46_highram_absolute R213). -/
theorem test_ld_A_atC_2 :
    faultIs (step { ram start [0xF2] [] with c := 0x7F })
      (.illegalMemoryAccess 0xFF7F .read)
      { ram start [0xF2] [] with c := 0x7F, pc := 0xC101 } = true := by decide

/-- LD (0x8000),A (46_highram_absolute R214). -/
theorem test_ld_atA16_A :
    nextIs (step { ram start [0xEA, 0x00, 0x80] [] with a := 0x99 })
      { ram start [0xEA, 0x00, 0x80] [(0x8000, 0x99)] with a := 0x99, pc := 0xC103 } = true := by decide

/-- LD (0x2000),A: cartridge area is writable (46_highram_absolute R214). -/
theorem test_ld_atA16_A_2 :
    nextIs (step { ram start [0xEA, 0x00, 0x20] [] with a := 0x99 })
      { ram start [0xEA, 0x00, 0x20] [(0x2000, 0x99)] with a := 0x99, pc := 0xC103 } = true := by decide

/-- LD A,(0xC000) (46_highram_absolute R215). -/
theorem test_ld_A_atA16 :
    nextIs (step (ram start [0xFA, 0x00, 0xC0] [(0xC000, 0x66)]))
      { ram start [0xFA, 0x00, 0xC0] [(0xC000, 0x66)] with a := 0x66, pc := 0xC103 } = true := by decide

/-! ### 2.7 Rotate and bit test (47_extended.md) -/

/-- RLA: Z stays 0 (47_extended R220). -/
theorem test_rla :
    nextIs (step { ram start [0x17] [] with a := 0x80, f := 0x00 })
      { ram start [0x17] [] with a := 0x00, f := 0x10, pc := 0xC101 } = true := by decide

/-- RLA: carry in (47_extended R220). -/
theorem test_rla_2 :
    nextIs (step { ram start [0x17] [] with a := 0x00, f := 0x10 })
      { ram start [0x17] [] with a := 0x01, f := 0x00, pc := 0xC101 } = true := by decide

/-- RL A: Z set (47_extended R221). -/
theorem test_rl_A :
    nextIs (step { ram start [0xCB, 0x17] [] with a := 0x80, f := 0x00 })
      { ram start [0xCB, 0x17] [] with a := 0x00, f := 0x90, pc := 0xC102 } = true := by decide

/-- RL B: carry in (47_extended R221). -/
theorem test_rl_B :
    nextIs (step { ram start [0xCB, 0x10] [] with b := 0x00, f := 0x10 })
      { ram start [0xCB, 0x10] [] with b := 0x01, f := 0x00, pc := 0xC102 } = true := by decide

/-- RL C (47_extended R221). -/
theorem test_rl_C :
    nextIs (step { ram start [0xCB, 0x11] [] with c := 0x34, f := 0x10 })
      { ram start [0xCB, 0x11] [] with c := 0x69, f := 0x00, pc := 0xC102 } = true := by decide

/-- RL (HL) (47_extended R222). -/
theorem test_rl_atHL :
    nextIs (step { ram start [0xCB, 0x16] [(0xC000, 0x81)] with h := 0xC0, l := 0x00, f := 0x00 })
      { ram start [0xCB, 0x16] [(0xC000, 0x02)] with h := 0xC0, l := 0x00, f := 0x10, pc := 0xC102 } = true :=
    by decide

/-- RL (HL) at 0xFF44: reads 0x90, write faults (47_extended R222). -/
theorem test_rl_atHL_2 :
    faultIs (step { ram start [0xCB, 0x16] [] with h := 0xFF, l := 0x44, f := 0x00 })
      (.illegalMemoryAccess 0xFF44 .write)
      { ram start [0xCB, 0x16] [] with h := 0xFF, l := 0x44, f := 0x00, pc := 0xC102 } = true := by decide

/-- BIT 7,B tests H (H=0x80) (47_extended R223). -/
theorem test_bit7_B :
    nextIs (step { ram start [0xCB, 0x78] [] with b := 0x00, h := 0x80, f := 0x00 })
      { ram start [0xCB, 0x78] [] with b := 0x00, h := 0x80, f := 0x20, pc := 0xC102 } = true := by decide

/-- BIT 7,B tests H (H=0x00), C kept (47_extended R223). -/
theorem test_bit7_B_2 :
    nextIs (step { ram start [0xCB, 0x78] [] with b := 0x80, h := 0x00, f := 0x10 })
      { ram start [0xCB, 0x78] [] with b := 0x80, h := 0x00, f := 0xB0, pc := 0xC102 } = true := by decide

/-- BIT 7,H (47_extended R223). -/
theorem test_bit7_H :
    nextIs (step { ram start [0xCB, 0x7C] [] with h := 0x9F, f := 0x00 })
      { ram start [0xCB, 0x7C] [] with h := 0x9F, f := 0x20, pc := 0xC102 } = true := by decide

/-- BIT 7,A with H=0x7F (47_extended R223). -/
theorem test_bit7_A :
    nextIs (step { ram start [0xCB, 0x7F] [] with a := 0xFF, h := 0x7F, f := 0x50 })
      { ram start [0xCB, 0x7F] [] with a := 0xFF, h := 0x7F, f := 0xB0, pc := 0xC102 } = true := by decide

/-- BIT 7,(HL) with HL=0x8000 (47_extended R224). -/
theorem test_bit7_atHL :
    nextIs (step { ram start [0xCB, 0x7E] [(0x8000, 0x00)] with h := 0x80, l := 0x00 })
      { ram start [0xCB, 0x7E] [(0x8000, 0x00)] with h := 0x80, l := 0x00, f := 0x20, pc := 0xC102 } = true :=
    by decide

/-- BIT 7,(HL) with HL=0x7FFF (47_extended R224). -/
theorem test_bit7_atHL_2 :
    nextIs (step { ram start [0xCB, 0x7E] [] with h := 0x7F, l := 0xFF })
      { ram start [0xCB, 0x7E] [] with h := 0x7F, l := 0xFF, f := 0xA0, pc := 0xC102 } = true := by decide

/-! ### 2.8 Decoding and unlisted opcodes (30_encoding.md) -/

/-- NOP is not admitted (30_encoding R97). -/
theorem test_unlisted_00 :
    faultIs (step (ram start [0x00] []))
      (.unimplementedOpcode .primary 0x00 0xC100)
      { ram start [0x00] [] with pc := 0xC101 } = true := by decide

/-- LD (HL),d8 is not admitted (30_encoding R97). -/
theorem test_unlisted_36 :
    faultIs (step { ram start [0x36, 0xAA] [] with h := 0xC0, l := 0x00 })
      (.unimplementedOpcode .primary 0x36 0xC100)
      { ram start [0x36, 0xAA] [(0xC000, 0x00)] with h := 0xC0, l := 0x00, pc := 0xC101 } = true := by decide

/-- XOR d8 is not admitted (30_encoding R97). -/
theorem test_unlisted_EE :
    faultIs (step (ram start [0xEE, 0x00] []))
      (.unimplementedOpcode .primary 0xEE 0xC100)
      { ram start [0xEE, 0x00] [] with pc := 0xC101 } = true := by decide

/-- INC SP is not admitted (30_encoding R97). -/
theorem test_unlisted_33 :
    faultIs (step (ram start [0x33] []))
      (.unimplementedOpcode .primary 0x33 0xC100)
      { ram start [0x33] [] with sp := 0x0000, pc := 0xC101 } = true := by decide

/-- RLC B (extended 0x00) is not admitted (30_encoding R97). -/
theorem test_unlisted_CB00 :
    faultIs (step (ram start [0xCB, 0x00] []))
      (.unimplementedOpcode .extended 0x00 0xC101)
      { ram start [0xCB, 0x00] [] with pc := 0xC102 } = true := by decide

/-- BIT 6,A (extended 0x77) is not admitted (30_encoding R97). -/
theorem test_unlisted_CB77 :
    faultIs (step (ram start [0xCB, 0x77] []))
      (.unimplementedOpcode .extended 0x77 0xC101)
      { ram start [0xCB, 0x77] [] with pc := 0xC102 } = true := by decide

/-! ### The router (95_test_vectors section 2.9) and the register file (section 2.10) -/

/-- A state with the overlay enabled, over a boot image and a memory. -/
def overlayOn : State :=
  { start with bootRomEnabled := true, bootImage := [(0, 0x31), (0xFF, 0xC3)], mem := cells [(0, 0x5A), (0x100, 0x21)] }

/-- The overlay covers 0x0000-0x00FF and nothing beyond (20_memory R67, R68). -/
theorem test_router_overlay : readIs 0x0000 overlayOn 0x31 = true ∧ readIs 0x00FF overlayOn 0xC3 = true ∧
    readIs 0x0100 overlayOn 0x21 = true ∧ readIs 0x0000 { overlayOn with bootRomEnabled := false } 0x5A = true ∧
    illegalIs (memWrite 0x00FF 0x12 overlayOn) 0x00FF .write overlayOn = true ∧
    writeIs 0x00FF start 0x12 false = true ∧ writeIs 0x0100 overlayOn 0x12 true = true := by decide

/-- The unmodeled band's edges (20_memory R56, R58). -/
theorem test_router_band : illegalIs (memRead 0xFF00 start) 0xFF00 .read start = true ∧
    illegalIs (memRead 0xFF0F start) 0xFF0F .read start = true ∧
    illegalIs (memRead 0xFF1F start) 0xFF1F .read start = true ∧
    illegalIs (memWrite 0xFF27 0 start) 0xFF27 .write start = true ∧
    illegalIs (memRead 0xFF41 start) 0xFF41 .read start = true ∧
    illegalIs (memRead 0xFF46 start) 0xFF46 .read start = true ∧
    illegalIs (memRead 0xFF51 start) 0xFF51 .read start = true ∧
    illegalIs (memRead 0xFF7F start) 0xFF7F .read start = true := by decide

/-- A read of a sound register, of LCD control and of the palette is a draw (20_memory R64, R65). -/
theorem test_router_draw : memRead 0xFF10 start = .ok (Config.stubRead 0) { start with draws := 1 } ∧
    memRead 0xFF26 start = .ok (Config.stubRead 0) { start with draws := 1 } ∧
    memRead 0xFF40 { start with draws := 5 } = .ok (Config.stubRead 5) { start with draws := 6 } := ⟨rfl, rfl, rfl⟩

/-- Stored bytes at both edges of the register window (20_memory R55, R64, R65, R66). -/
theorem test_router_stores : readIs 0xFEFF { start with mem := cells [(0xFEFF, 0x77)] } 0x77 = true ∧
    writeIs 0xFF3F start 0xAB false = true ∧ writeIs 0xFF47 start 0xFC false = true ∧
    writeIs 0xFF43 start 0x08 false = true ∧ readIs 0xFF43 { start with mem := cells [(0xFF43, 0x08)] } 0x08 = true ∧
    readIs 0xFF44 start 0x90 = true ∧ writeIs 0xFF80 start 0x01 false = true ∧
    writeIs 0xFFFF start 0x1F false = true := by decide

/-- The latch (20_memory R62). -/
theorem test_router_latch : writeIs 0xFF50 overlayOn 0x00 true = true ∧ writeIs 0xFF50 overlayOn 0x80 false = true ∧
    writeIs 0xFF50 start 0x01 false = true ∧ readIs 0xFF50 { start with mem := cells [(0xFF50, 1)] } 1 = true := by
  decide

/-- Pairs (10_state R23, R24). -/
theorem test_pairs : start.setPair .af 0x12FF = { start with a := 0x12, f := 0xF0 } ∧
    start.setPair .hl 0xC0DE = { start with h := 0xC0, l := 0xDE } ∧
    { start with b := 0xAB, c := 0xCD }.getPair .bc = 0xABCD := by decide

/-- The dump's flag string (95_test_vectors E9). -/
theorem test_flag_string : flagString { start with f := 0xB0 } = ['Z', '-', 'H', 'C'] ∧
    flagString { start with f := 0x40 } = ['-', 'N', '-', '-'] ∧ flagString start = ['-', '-', '-', '-'] := by decide

/-- A dump's fields (60_exceptions R263). -/
theorem test_dump : dump { items := [.reg .a, .pair .hl, .flags], separator := [' '], upper := true }
    { start with a := 0x0B, h := 0xC0, l := 0xDE, f := 0x80 } =
      ['0', 'B', ' ', 'C', '0', 'D', 'E', ' ', 'Z', '-', '-', '-'] := by decide

/-- A canonical memory has no entry of the fill byte: storing 0 takes the entry out. -/
theorem test_memory_canonical : (cells [(5, 1), (3, 2)]).write 5 0 = [(3, 2)] ∧ (cells [(5, 1), (3, 2)]).wf = true ∧
    Memory.wf [(5, 1), (3, 2)] = false ∧ Memory.wf [(3, 0)] = false ∧ Memory.wf [(65536, 1)] = false := by decide

/-! ### Witnesses: concrete states and operands that meet each obligation's hypotheses together -/

/-- The state with HL at an address. -/
def hlAt (h l : Byte) (s : State) : State := { s with h := h, l := l }

theorem next_of_nextIs {o : StepResult} {t : State} (h : nextIs o t = true) : o = .next t := by
  cases o
  case next u => exact congrArg _ (of_decide_eq_true h)
  case fault r => cases h
  case refused r => cases h

/-- A state right after reset but for its overlay, which begins with these bytes. -/
def booted (code : List Byte) : State := { State.reset with bootImage := imageCells 0 code }

/-- A boot image: LD SP,0xFFFE, then a byte with no entry, then zeros. -/
def sampleImage : BootImage where
  bytes := 0x31 :: 0xFE :: 0xFF :: 0xD3 :: List.replicate 252 0
  size := by simp only [List.length_cons, List.length_replicate]; rfl
  first := rfl

/-- A boot image has 256 bytes and starts with 0x31 (00_scope R9): these three bytes, and an image that starts with
0x00, are none. -/
theorem test_boot_image :
    (¬∃ b : BootImage, b.bytes = [0x31, 0xFE, 0xFF]) ∧ ¬∃ b : BootImage, b.bytes[0]? = some 0x00 := by
  constructor
  · rintro ⟨b, hb⟩; have h := b.size; rw [hb] at h; exact absurd h (by decide)
  · rintro ⟨b, hb⟩; have h := b.first; rw [hb] at h; exact absurd h (by decide)

theorem witness_EncodeOfDecodeIsTheBytes : decode [0xCB, 0x7C, 0x99] = .ok .bit7_H [0x99] := by decide

theorem witness_AdmittedFormsAreTheInstructions :
    (Form.bit7 .atHL).wellFormed = true ∧ (Form.ldImm .atHL 7).wellFormed = false := by decide

theorem witness_DecoderRefusesExactlyTheUnlistedBytes :
    NotAdmitted .primary 0xFF ∧ NotAdmitted .extended 0x80 := by unfold NotAdmitted; decide

theorem witness_StepRunsTheDecodedInstruction :
    (ram start [0x3C] []).fault = none ∧
      fetchInstr (ram start [0x3C] []) = .ok .inc_A { ram start [0x3C] [] with pc := 0xC101 } := ⟨rfl, rfl⟩

theorem witness_StepRunsTheCodeAtPC :
    (ram start [0x01, 0xCD, 0xAB] []).fault = none ∧
      CodeAt (ram start [0x01, 0xCD, 0xAB] []) 0xC100 (encode (.ld_BC_d16 0xABCD)) := by
  unfold CodeAt; decide

/-- The last byte of a three-byte instruction lies in the band, at 0xFF00. -/
theorem witness_FetchFromTheBandIsFatal :
    2 < (encode (.call_a16 0)).length ∧
      CodeAt (ram { start with pc := 0xFEFE } [0xCD, 0x00] []) 0xFEFE ((encode (.call_a16 0)).take 2) ∧
      readable (0xFEFE + BitVec.ofNat 16 2) = false := by
  unfold CodeAt; decide

theorem witness_UnlistedOpcodeIsFatal_primary :
    start.fault = none ∧ readable start.pc = true ∧ readValue start start.pc = 0x00 ∧ NotAdmitted .primary 0x00 := by
  unfold NotAdmitted; decide

theorem witness_UnlistedOpcodeIsFatal_extended :
    CodeAt (ram start [0xCB, 0x00] []) 0xC100 [0xCB] ∧ readable (0xC100 + 1) = true ∧
      readValue (ram start [0xCB, 0x00] []) (0xC100 + 1) = 0x00 ∧ NotAdmitted .extended 0x00 := by
  unfold CodeAt NotAdmitted; decide

theorem witness_FaultIsRecordedAndTerminal :
    { start with fault := some .invariantViolation }.fault = some .invariantViolation ∧ start.fault = none ∧
      faultIs (step start) (.unimplementedOpcode .primary 0 0xC100) { start with pc := 0xC101 } = true := by decide

/-- Each clause at the edges of its range. -/
theorem witness_RouterRead :
    ((0x00FF : Word).toNat < 0x100 ∧ overlayOn.bootRomEnabled = true) ∧ start.bootRomEnabled = false ∧
      (0x100 ≤ (0x0100 : Word).toNat ∧ (0xFEFF : Word).toNat < 0xFF00) ∧ 0xFF80 ≤ (0xFF80 : Word).toNat ∧
      (0xFF42 : Word).toNat = 0xFF42 ∧ (0xFF44 : Word).toNat = 0xFF44 ∧
      (stubAddr 0xFF10 = true ∧ stubAddr 0xFF1E = true ∧ stubAddr 0xFF20 = true ∧ stubAddr 0xFF26 = true ∧
        stubAddr 0xFF30 = true ∧ stubAddr 0xFF3F = true ∧ stubAddr 0xFF40 = true ∧ stubAddr 0xFF47 = true) ∧
      (unmodeledAddr 0xFF00 = true ∧ unmodeledAddr 0xFF0F = true ∧ unmodeledAddr 0xFF1F = true ∧
        unmodeledAddr 0xFF27 = true ∧ unmodeledAddr 0xFF41 = true ∧ unmodeledAddr 0xFF51 = true ∧
        unmodeledAddr 0xFF7F = true) := by decide

/-- No address falls under two clauses that differ. -/
theorem witness_RouterWrite :
    ((0x0000 : Word).toNat < 0x100 ∧ overlayOn.bootRomEnabled = true) ∧ start.bootRomEnabled = false ∧
      (stubAddr 0xFF50 = false ∧ unmodeledAddr 0xFF50 = false ∧ stubAddr 0xFF44 = false ∧ unmodeledAddr 0xFF44 = false) ∧
      (stubAddr 0xFF1F = false ∧ unmodeledAddr 0xFF1E = false ∧ unmodeledAddr 0xFF42 = false ∧
        unmodeledAddr 0xFF43 = false ∧ unmodeledAddr 0xFF40 = false ∧ unmodeledAddr 0xFF80 = false) := by decide

theorem witness_StoredByteIsReadBack :
    memWrite 0xFFFF 0x1F start = .ok () { start with mem := [(0xFFFF, 0x1F)] } ∧ stubAddr 0xFFFF = false :=
  ⟨rfl, by decide⟩

theorem witness_WritesKeepMemoryCanonical :
    start.mem.wf = true ∧ memWrite 0x0000 1 start = .ok () { start with mem := [(0, 1)] } := ⟨rfl, rfl⟩

theorem witness_ResetLoadsTheImages :
    (List.replicate 32768 (0x5A : Byte)).length = 32768 ∧ (List.replicate 32768 (0x5A : Byte))[32767]? = some 0x5A ∧
      (0x00FF : Word).toNat < 0x100 ∧ sampleImage.bytes[0]? = some 0x31#8 :=
  ⟨List.length_replicate, List.getElem?_replicate_of_lt (by decide), by decide, sampleImage.first⟩

theorem witness_ShortCartridgeIsStartupIO :
    (List.replicate 32767 (0 : Byte)).length ≠ 32768 ∧ (List.replicate 32769 (0 : Byte)).length ≠ 32768 ∧
      (List.replicate 32768 (0 : Byte)).length = 32768 := by
  rw [List.length_replicate, List.length_replicate, List.length_replicate]; decide

theorem witness_FirstStepLoadsSP :
    sampleImage.bytes[1]? = some 0xFE ∧ sampleImage.bytes[2]? = some 0xFF := ⟨rfl, rfl⟩

theorem witness_LoadPairImmediate :
    (Instr.ld_BC_d16 0xABCD).form = .ldPair .bc 0xABCD ∧ (Instr.ld_DE_d16 0).form = .ldPair .de 0 ∧
      (Instr.ld_HL_d16 0xFFFF).form = .ldPair .hl 0xFFFF ∧ (Instr.ld_SP_d16 1).form = .ldPair .sp 1 := by decide

theorem witness_LoadByteImmediate : (Instr.ld_A_d8 0xFF).form = .ldImm .a 0xFF := by decide

/-- A register move, both memory forms, and the two faults of LD (HL),(HL) at 0xFF44 and 0xFF00. -/
theorem witness_MoveBlock :
    (Instr.ld_A_B.form = .ld .a .b ∧ slotReadable .b start = true ∧ slotWritable .a start = true) ∧
      (Instr.ld_atHL_atHL.form = .ld .atHL .atHL ∧ slotReadable .atHL (hlAt 0xC0 0 start) = true ∧
        slotWritable .atHL (hlAt 0xC0 0 start) = true) ∧
      slotReadable .atHL (hlAt 0xFF 0 start) = false ∧
      (slotReadable .atHL (hlAt 0xFF 0x44 start) = true ∧ slotWritable .atHL (hlAt 0xFF 0x44 start) = false) := by
  decide

/-- Register forms and (HL), completing, faulting on the read and faulting on the write. -/
theorem witness_IncrementByte :
    (Instr.inc_A.form = .inc .a ∧ flagsOk start ∧ slotReadable .a start = true ∧ slotWritable .a start = true) ∧
      (Instr.inc_atHL.form = .inc .atHL ∧ flagsOk (hlAt 0xFE 0xFF start) ∧
        slotReadable .atHL (hlAt 0xFE 0xFF start) = true ∧ slotWritable .atHL (hlAt 0xFE 0xFF start) = true) ∧
      slotReadable .atHL (hlAt 0xFF 0x7F start) = false ∧
      (flagsOk overlayOn ∧ slotReadable .atHL overlayOn = true ∧ slotWritable .atHL overlayOn = false) := by
  unfold flagsOk; decide

theorem witness_DecrementByte :
    (Instr.dec_A.form = .dec .a ∧ flagsOk start ∧ slotReadable .a start = true ∧ slotWritable .a start = true) ∧
      (Instr.dec_atHL.form = .dec .atHL ∧ flagsOk (hlAt 0xFF 0x80 start) ∧
        slotReadable .atHL (hlAt 0xFF 0x80 start) = true ∧ slotWritable .atHL (hlAt 0xFF 0x80 start) = true) ∧
      slotReadable .atHL (hlAt 0xFF 0x1F start) = false ∧
      (flagsOk (hlAt 0xFF 0x44 start) ∧ slotReadable .atHL (hlAt 0xFF 0x44 start) = true ∧
        slotWritable .atHL (hlAt 0xFF 0x44 start) = false) := by unfold flagsOk; decide

theorem witness_PairIncrementAndDecrement :
    Instr.inc_BC.form = .incPair .bc ∧ Instr.dec_DE.form = .decPair .de ∧ Instr.inc_HL.form = .incPair .hl :=
    by decide

theorem witness_IncrementThenDecrement :
    Instr.inc_A.form = .inc .a ∧ Instr.dec_A.form = .dec .a ∧ Slot.a ≠ .atHL ∧ flagsOk { start with a := 0xFF } := by
  unfold flagsOk; decide

/-- A register, memory and immediate operand, and the read fault, of each accumulator operation. -/
theorem witness_AddToA :
    (Instr.add_A_C.form = .alu .add (.slot .c) ∧ (Instr.add_A_d8 0xFF).form = .alu .add (.imm 0xFF) ∧
        Instr.add_A_atHL.form = .alu .add (.slot .atHL)) ∧
      flagsOk start ∧ srcReadable (.slot .c) start = true ∧ srcReadable (.imm 0xFF) start = true ∧
      srcReadable (.slot .atHL) start = true ∧ srcReadable (.slot .atHL) (hlAt 0xFF 0x00 start) = false := by
  unfold flagsOk; decide

theorem witness_SubtractFromA :
    (Instr.sub_B.form = .alu .sub (.slot .b) ∧ (Instr.sub_d8 1).form = .alu .sub (.imm 1) ∧
        Instr.sub_atHL.form = .alu .sub (.slot .atHL)) ∧
      flagsOk start ∧ srcReadable (.slot .b) start = true ∧ srcReadable (.slot .atHL) (hlAt 0xFF 0x51 start) = false := by
  unfold flagsOk; decide

theorem witness_CompareWithA :
    (Instr.cp_A.form = .alu .cp (.slot .a) ∧ (Instr.cp_d8 5).form = .alu .cp (.imm 5) ∧
        Instr.cp_atHL.form = .alu .cp (.slot .atHL)) ∧
      flagsOk start ∧ srcReadable (.slot .a) start = true ∧ srcReadable (.slot .atHL) (hlAt 0xFF 0x41 start) = false := by
  unfold flagsOk; decide

theorem witness_ExclusiveOrWithA :
    (Instr.xor_A.form = .alu .xor (.slot .a) ∧ Instr.xor_atHL.form = .alu .xor (.slot .atHL)) ∧
      flagsOk start ∧ srcReadable (.slot .a) start = true ∧ srcReadable (.slot .atHL) (hlAt 0xFF 0x0F start) = false := by
  unfold flagsOk; decide

/-- The three cases of a push: at 0xFFFF (the high byte wraps to 0), at SP = 0 under the overlay, and at 0xFF43, whose
high byte's write is illegal. -/
theorem witness_PushPair :
    Instr.push_HL.form = .push .hl ∧ pushWritable 0x02 { start with sp := 0xFFFF } = true ∧
      writable overlayOn overlayOn.sp = false ∧
      (writable { start with sp := 0xFF43 } 0xFF43 = true ∧
        writable (afterWrite { start with sp := 0xFF43 } 0xFF43 0x02) (0xFF43 + 1) = false) := by decide

/-- The three cases of a pop: at 0xFEFC, at 0xFEFE, whose low byte's read is illegal, and at 0xFEFD. -/
theorem witness_PopPair :
    Instr.pop_AF.form = .pop .af ∧ (readable (0xFEFC + 2) = true ∧ readable (0xFEFC + 3) = true) ∧
      readable (0xFEFE + 2) = false ∧ (readable (0xFEFD + 2) = true ∧ readable (0xFEFD + 3) = false) := by decide

theorem witness_PushThenPopRestores :
    Instr.push_AF.form = .push .af ∧ Instr.pop_AF.form = .pop .af ∧ flagsOk { start with sp := 0xFFFF } ∧
      region 0xFFFF = .plain ∧ region (0xFFFF + 1) = .bootArea ∧ start.bootRomEnabled = false := by
  unfold flagsOk; decide

theorem witness_JumpRelative : (Instr.jr_e8 0x80).form = .jr 0x80 := by decide

/-- Each condition, met and not met. -/
theorem witness_JumpOnCondition :
    ((Instr.jr_NZ_e8 1).form = .jrCond .nz 1 ∧ (Instr.jr_Z_e8 1).form = .jrCond .z 1 ∧
        (Instr.jr_NC_e8 1).form = .jrCond .nc 1 ∧ (Instr.jr_C_e8 1).form = .jrCond .c 1) ∧
      (flagsOk start ∧ zero start = false ∧ carry start = false) ∧
      (flagsOk { start with f := 0x90 } ∧ zero { start with f := 0x90 } = true ∧
        carry { start with f := 0x90 } = true) := by unfold flagsOk; decide

theorem witness_CallPushesReturnAddress :
    (Instr.call_a16 0xFFFF).form = .call 0xFFFF ∧ pushWritable 0x03 { start with sp := 0xFFFE } = true ∧
      writable overlayOn overlayOn.sp = false ∧
      (writable { start with sp := 0xFEFF } 0xFEFF = true ∧
        writable (afterWrite { start with sp := 0xFEFF } 0xFEFF 0x03) (0xFEFF + 1) = false) := by decide

theorem witness_ReturnPopsPC :
    Instr.ret.form = .ret ∧ (readable (0xFFFC + 2) = true ∧ readable (0xFFFC + 3) = true) ∧
      readable (0xFF7D + 2) = false ∧ (readable (0xFF0E + 2) = true ∧ readable (0xFF1C + 2) = true ∧
        readable (0xFF1C + 3) = false) := by decide

theorem witness_CallThenReturnComesBack :
    (Instr.call_a16 0x8000).form = .call 0x8000 ∧ Instr.ret.form = .ret ∧ region 0xFFFE = .plain ∧
      region (0xFFFE + 1) = .plain := by decide

/-- The three forms, an address each accepts and one each faults on. -/
theorem witness_StoreAccumulator :
    ((Instr.ldh_atA8_A 0x80).form = .storeHigh 0x80 ∧ encode (.ldh_atA8_A 0x80) = [0xE0, 0x80] ∧
        Instr.ld_atC_A.form = .storeHighC ∧ encode .ld_atC_A = [0xE2] ∧
        (Instr.ld_atA16_A 0x00FF).form = .storeAbs 0x00FF ∧ encode (.ld_atA16_A 0x00FF) = [0xEA, 0xFF, 0x00]) ∧
      (writable start 0xFF80 = true ∧ writable start 0x00FF = true) ∧
      (writable start 0xFF44 = false ∧ writable start 0xFF7F = false ∧ writable overlayOn 0x00FF = false) := by decide

theorem witness_LoadAccumulator :
    ((Instr.ldh_A_atA8 0x44).form = .loadHigh 0x44 ∧ encode (.ldh_A_atA8 0x44) = [0xF0, 0x44] ∧
        Instr.ld_A_atC.form = .loadHighC ∧ encode .ld_A_atC = [0xF2] ∧
        (Instr.ld_A_atA16 0xFFFF).form = .loadAbs 0xFFFF ∧ encode (.ld_A_atA16 0xFFFF) = [0xFA, 0xFF, 0xFF]) ∧
      (readable 0xFF44 = true ∧ readable 0xFFFF = true) ∧ (readable 0xFF41 = false ∧ readable 0xFF7F = false) :=
    by decide

theorem witness_RotateAccumulatorLeft : Instr.rla.form = .rla ∧ flagsOk { start with a := 0x80, f := 0x10 } := by
  unfold flagsOk; decide

theorem witness_RotateSlotLeft :
    (Instr.rl_atHL.form = .rl .atHL ∧
        0x20 = BitVec.ofNat 8 (2 * (slotValue .atHL (hlAt 0xFF 0x44 { start with f := 0 })).toNat +
          if carry { start with f := 0 } then 1 else 0)) ∧
      (flagsOk (hlAt 0xC0 0 start) ∧ slotReadable .atHL (hlAt 0xC0 0 start) = true ∧
        slotWritable .atHL (hlAt 0xC0 0 start) = true) ∧
      slotReadable .atHL (hlAt 0xFF 0x2F start) = false ∧
      (slotReadable .atHL (hlAt 0xFF 0x44 start) = true ∧ slotWritable .atHL (hlAt 0xFF 0x44 start) = false) := by
  unfold flagsOk; decide

theorem witness_BitTestInspectsH :
    (Instr.bit7_atHL.form = .bit7 .atHL ∧ flagsOk (hlAt 0x80 0 start) ∧ slotReadable .atHL (hlAt 0x80 0 start) = true) ∧
      slotReadable .atHL (hlAt 0xFF 0 start) = false := by unfold flagsOk; decide

/-- F's low nibble is nonzero, which no run reaches. -/
theorem witness_FlagAccessorChecksF :
    flagOperand Instr.inc_A.form = some (.slot .a) ∧ srcReadable (.slot .a) { start with f := 0x01 } = true ∧
      ¬flagsOk { start with f := 0x01 } := by unfold flagsOk; decide

theorem witness_RegisterFrame :
    exec .inc_B start = .next { start with b := 1 } ∧ Reg8.c ≠ .f ∧ Reg8.c ∉ writtenRegs Instr.inc_B.form :=
  ⟨rfl, by decide, by decide⟩

theorem witness_FlagFrame :
    exec .dec_B { start with f := 0x10 } = .next { start with b := 0xFF, f := 0x70 } ∧ 4 < 8 ∧
      4 ∉ writtenFlags Instr.dec_B.form := ⟨rfl, by decide, by decide⟩

theorem witness_MemoryFrame :
    exec .push_BC { start with sp := 0xD000, b := 2, c := 1 } =
        .next { start with sp := 0xCFFE, b := 2, c := 1, mem := [(0xD000, 1), (0xD001, 2)] } ∧
      ∀ a ∈ storeAddrs Instr.push_BC.form { start with sp := 0xD000, b := 2, c := 1 }, 0xD002 ≠ a.toNat := by
  refine ⟨next_of_nextIs (by decide), fun a ha => ?_⟩
  have h : a = 0xD000#16 ∨ a = 0xD001#16 := by simpa using (show a ∈ [0xD000#16, 0xD001#16] from ha)
  rcases h with rfl | rfl <;> decide

theorem witness_ControlFrame :
    exec .ld_atHL_A (hlAt 0xC0 0x00 { start with a := 7 }) =
        .next { hlAt 0xC0 0x00 { start with a := 7 } with mem := [(0xC000, 7)] } ∧
      transfersControl Instr.ld_atHL_A.form = false ∧
      ∀ a ∈ storeAddrs Instr.ld_atHL_A.form (hlAt 0xC0 0x00 { start with a := 7 }), a.toNat ≠ 0xFF50 := by
  refine ⟨next_of_nextIs (by decide), rfl, fun a ha => ?_⟩
  have h : a = 0xC000#16 := by simpa using (show a ∈ [0xC000#16] from ha)
  rw [h]; decide

theorem witness_InvAtEverySessionStart : (List.replicate 32768 (0x5A : Byte)).length = 32768 := List.length_replicate

/-- The invariant holds of a state whose memory lists nothing, whose F has a zero low nibble and that has no fault. -/
theorem inv_of_empty (s : State) (hm : s.mem = []) (hf : s.f = 0) (hn : s.fault = none) : Inv s where
  memCanonical := by rw [hm]; rfl
  flagsLowZero := by rw [flagsOk, hf]; rfl
  latchClosed := by rw [hm]; intro h; exact absurd rfl h
  scanlineUnwritten := by rw [hm]; rfl
  bandUnwritten := by rw [hm]; intro _ _; rfl
  running := hn

theorem witness_StepKeepsInv :
    Inv (booted [0x31, 0xFE, 0xFF]) ∧
      step (booted [0x31, 0xFE, 0xFF]) = .next { booted [0x31, 0xFE, 0xFF] with sp := 0xFFFE, pc := 3 } :=
  ⟨inv_of_empty _ rfl rfl rfl, rfl⟩

theorem witness_OnlyTheListedFaults :
    (Inv (booted [0xD3]) ∧ faultIs (step (booted [0xD3])) (.unimplementedOpcode .primary 0xD3 0)
        { booted [0xD3] with pc := 1 } = true) ∧
      (Inv (booted [0x77]) ∧ faultIs (step (booted [0x77])) (.illegalMemoryAccess 0 .write)
        { booted [0x77] with pc := 1 } = true) :=
  ⟨⟨inv_of_empty _ rfl rfl rfl, by decide⟩, ⟨inv_of_empty _ rfl rfl rfl, by decide⟩⟩

/-- A run of two steps that faults, whatever the rest of the image and the cartridge. -/
theorem run_unlisted (t cart : List Byte) (b : BootImage) (h : b.bytes = 0x31 :: 0xFE :: 0xFF :: 0xD3 :: t) :
    ∃ r, Sys2Proof.core.run 2 (resetWith b cart) = .fault r := by
  obtain ⟨bytes, size, first⟩ := b
  subst h
  exact ⟨_, rfl⟩

theorem witness_NoRunViolatesTheFlagInvariant :
    (List.replicate 32768 (0 : Byte)).length = 32768 ∧
      ∃ r, Sys2Proof.core.run 2 (resetWith sampleImage (List.replicate 32768 0)) = .fault r :=
  ⟨List.length_replicate, run_unlisted _ _ sampleImage rfl⟩

theorem witness_OverlayNeverComesBack :
    start.bootRomEnabled = false ∧
      Sys2Proof.core.run 1 (ram start [0x3C] []) = .next { ram start [0x3C] [] with a := 1, pc := 0xC101 } := ⟨rfl, rfl⟩

theorem witness_OnlyTheLatchDisablesTheOverlay :
    step { ram overlayOn [0xE0, 0x50] [] with a := 1 } =
        .next { ram overlayOn [0xE0, 0x50] [(0xFF50, 1)] with a := 1, pc := 0xC102, bootRomEnabled := false } ∧
      overlayOn.bootRomEnabled = true := ⟨rfl, rfl⟩

theorem witness_OverlayProtectsTheBytesBehindIt :
    overlayOn.bootRomEnabled = true ∧
      step (ram overlayOn [0x3C] []) = .next { ram overlayOn [0x3C] [] with a := 1, pc := 0xC101 } ∧ 0xFF < 0x100 :=
  ⟨rfl, rfl, by decide⟩

/-- Two states that differ behind the scanline register, and one step of each kind. -/
theorem witness_HiddenBytesAreNeverReadBack :
    SameButHidden (booted [0x3C]) { booted [0x3C] with mem := [(0xFF44, 1)] } ∧
      step (booted [0x3C]) = .next { booted [0x3C] with a := 1, pc := 1 } ∧
      SameButHidden (booted [0xD3]) { booted [0xD3] with mem := [(0xFF44, 1)] } ∧
      faultIs (step (booted [0xD3])) (.unimplementedOpcode .primary 0xD3 0) { booted [0xD3] with pc := 1 } = true := by
  have h : ∀ s : State, s.mem = [] → SameButHidden s { s with mem := [(0xFF44, 1)] } := by
    intro s hs
    refine ⟨rfl, fun a ha => ?_⟩
    have hne : ¬0xFF44 = a.toNat := by intro he; simp [neverReadBack, ← he] at ha
    rw [hs]; exact (if_neg hne).symm
  exact ⟨h _ rfl, rfl, h _ rfl, by decide⟩

end Sys2Proof.Tests
end

section
/-! PROOF. The session's start: what `resetWith` puts into memory and in front of it (70_reset_and_hazards R270). -/

namespace Sys2Proof.Machine

/-- The low 256 addresses are the boot area (20_memory R55). -/
theorem region_of_lt_bootSize {a : Word} (ha : a.toNat < 0x100) : region a = .bootArea :=
  if_pos (Nat.le_of_lt_succ ha)

/-- A read of the low 256 addresses with the overlay on answers from the boot image (20_memory R60, R67). -/
theorem memRead_overlay {a : Word} {s : State} (ha : a.toNat < 0x100) (hs : s.bootRomEnabled = true) :
    memRead a s = .ok (bootByte s a) s := by
  simp only [memRead, region_of_lt_bootSize ha, hs, if_true]

@[simp] theorem resetWith_getReg (boot : BootImage) (cart : List Byte) (r : Reg8) :
    (resetWith boot cart).getReg r = 0 := by
  cases r <;> rfl

/-- A session's memory is its cartridge image, and zero beyond it. -/
theorem read_resetWith (boot : BootImage) (cart : List Byte) (a : Nat) :
    (resetWith boot cart).mem.read a = (cart[a]?).getD 0 :=
  read_ofImage 0 a cart (Nat.zero_le a)

/-- At a session's start a read of the overlay answers the boot image's byte and leaves the state. -/
theorem memRead_resetWith {boot : BootImage} {a : Word} {v : Byte} (cart : List Byte) (ha : a.toNat < 0x100)
    (hv : boot.bytes[a.toNat]? = some v) : memRead a (resetWith boot cart) = .ok v (resetWith boot cart) := by
  rw [memRead_overlay ha rfl, bootByte_resetWith cart hv]

/-- Settles O19: the memory is the cartridge image and then zeros, and in front of it the overlay, on at reset, answers
the boot image, its first byte 0x31 included. -/
theorem resetLoadsTheImages : Obligations.ResetLoadsTheImages := by
  intro boot cart hlen
  refine ⟨resetWith_getReg boot cart, rfl, rfl, rfl, rfl, ?cartridge, ?zeroFill, ?overlay, ?firstByte⟩
  case cartridge =>
    intro a v hv
    rw [read_resetWith, hv, Option.getD_some]
  case zeroFill =>
    intro a ha
    rw [read_resetWith, List.getElem?_eq_none (hlen.trans_le ha), Option.getD_none]
  case overlay =>
    intro a ha
    obtain ⟨v, hv⟩ := boot.getElem?_isSome ha
    exact ⟨v, hv, memRead_resetWith cart ha hv⟩
  case firstByte => exact memRead_resetWith cart (by decide) boot.first

end Sys2Proof.Machine
end

section
/-! PROOF. What an instruction that answers a next state did, said once for all 23 forms: the conditions it met and the
state it left, in the vocabulary of Safety. The frames and the invariant are facts about these. -/

namespace Sys2Proof.Machine

open Sys2Proof.Safety

/-- The state a read-modify-write of a slot leaves. -/
def afterModify (micro : Byte → Flags → MicroResult) (x : Slot) (s : State) : State :=
  (afterSlotWrite x (micro (slotValue x s) (flagsOfByte s.f)).val (afterSlotRead x s)).setReg .f
    (micro (slotValue x s) (flagsOfByte s.f)).flags.toByte

/-- The conditions under which an instruction of the form answers a next state. -/
def completes (fm : Form) (s : State) : Prop :=
  match fm with
  | .ldPair _ _ => True
  | .ldImm x _ => slotWritable x s = true
  | .ld x y => slotReadable y s = true ∧ slotWritable x s = true
  | .inc x => flagsOk s ∧ slotReadable x s = true ∧ slotWritable x s = true
  | .dec x => flagsOk s ∧ slotReadable x s = true ∧ slotWritable x s = true
  | .incPair _ => True
  | .decPair _ => True
  | .alu _ src => flagsOk s ∧ srcReadable src s = true
  | .push q => pushWritable (pairLo q s) s = true
  | .pop _ => readable (s.sp + 2) = true ∧ readable (s.sp + 3) = true
  | .jr _ => True
  | .jrCond _ _ => flagsOk s
  | .call _ => pushWritable (loByte s.pc) s = true
  | .ret => readable (s.sp + 2) = true ∧ readable (s.sp + 3) = true
  | .storeHigh o => writable s (highAddr o) = true
  | .loadHigh o => readable (highAddr o) = true
  | .storeHighC => writable s (highAddr (s.getReg .c)) = true
  | .loadHighC => readable (highAddr (s.getReg .c)) = true
  | .storeAbs t => writable s t = true
  | .loadAbs t => readable t = true
  | .rla => flagsOk s
  | .rl x => flagsOk s ∧ slotReadable x s = true ∧ slotWritable x s = true
  | .bit7 x => flagsOk s ∧ slotReadable x s = true

/-- The state an instruction of the form leaves when it answers a next state. -/
def afterForm (fm : Form) (s : State) : State :=
  match fm with
  | .ldPair .bc v => s.setPair .bc v
  | .ldPair .de v => s.setPair .de v
  | .ldPair .hl v => s.setPair .hl v
  | .ldPair .sp v => s.setSP v
  | .ldImm x v => afterSlotWrite x v s
  | .ld x y => afterSlotWrite x (slotValue y s) (afterSlotRead y s)
  | .inc x => afterModify increment x s
  | .dec x => afterModify decrement x s
  | .incPair .bc => s.setPair .bc (s.getPair .bc + 1)
  | .incPair .de => s.setPair .de (s.getPair .de + 1)
  | .incPair .hl => s.setPair .hl (s.getPair .hl + 1)
  | .incPair .sp => s
  | .decPair .bc => s.setPair .bc (s.getPair .bc - 1)
  | .decPair .de => s.setPair .de (s.getPair .de - 1)
  | .decPair .hl => s.setPair .hl (s.getPair .hl - 1)
  | .decPair .sp => s
  | .alu op src => (storeResult op (aluMicro op s.a (srcValue src s)).val (afterSrcRead src s)).setReg .f
      (aluMicro op s.a (srcValue src s)).flags.toByte
  | .push q => afterPush (pairHi q s) (pairLo q s) s
  | .pop q => (afterPop s).setPair q (mkWord (popHigh s) (popLow s))
  | .jr e => s.setPC (jumpTarget e s)
  | .jrCond cc e => if condHolds cc (flagsOfByte s.f) then s.setPC (jumpTarget e s) else s
  | .call t => (afterPush (hiByte s.pc) (loByte s.pc) s).setPC t
  | .ret => (afterPop s).setPC (mkWord (popHigh s) (popLow s))
  | .storeHigh o => afterWrite s (highAddr o) s.a
  | .loadHigh o => (afterRead s (highAddr o)).setReg .a (readValue s (highAddr o))
  | .storeHighC => afterWrite s (highAddr (s.getReg .c)) s.a
  | .loadHighC => (afterRead s (highAddr (s.getReg .c))).setReg .a (readValue s (highAddr (s.getReg .c)))
  | .storeAbs t => afterWrite s t s.a
  | .loadAbs t => (afterRead s t).setReg .a (readValue s t)
  | .rla => (s.setReg .a (rla8 s.a (flagsOfByte s.f)).val).setReg .f (rla8 s.a (flagsOfByte s.f)).flags.toByte
  | .rl x => afterModify rl8 x s
  | .bit7 x => (afterSlotRead x s).setReg .f (bittest (slotValue x s) s.h (flagsOfByte s.f)).toByte

theorem formMeaning_next {fm : Form} {s t : State} (h : formMeaning fm s = .next t) :
    completes fm s ∧ t = afterForm fm s := by
  cases fm with
  | ldPair p v => cases p <;> cases h <;> exact ⟨trivial, rfl⟩
  | incPair p => cases p <;> cases h <;> exact ⟨trivial, rfl⟩
  | decPair p => cases p <;> cases h <;> exact ⟨trivial, rfl⟩
  | ldImm x v => exact loadImm_next h
  | ld x y =>
    obtain ⟨hr, hw, rfl⟩ := move_next h
    exact ⟨⟨hr, hw⟩, rfl⟩
  | inc x =>
    obtain ⟨hf, hr, hw, rfl⟩ := modifySlot_next h
    exact ⟨⟨hf, hr, hw⟩, rfl⟩
  | dec x =>
    obtain ⟨hf, hr, hw, rfl⟩ := modifySlot_next h
    exact ⟨⟨hf, hr, hw⟩, rfl⟩
  | rl x =>
    obtain ⟨hf, hr, hw, rfl⟩ := modifySlot_next h
    exact ⟨⟨hf, hr, hw⟩, rfl⟩
  | alu op src =>
    obtain ⟨hf, hr, rfl⟩ := accumulate_next h
    exact ⟨⟨hf, hr⟩, rfl⟩
  | push q => exact pushPair_next h
  | pop q =>
    obtain ⟨h2, h3, rfl⟩ := popPair_next h
    exact ⟨⟨h2, h3⟩, rfl⟩
  | jr e => cases h; exact ⟨trivial, rfl⟩
  | jrCond cc e => exact jumpCond_next h
  | call t => exact callAbs_next h
  | ret =>
    obtain ⟨h2, h3, rfl⟩ := returnPop_next h
    exact ⟨⟨h2, h3⟩, rfl⟩
  | storeHigh o => exact storeA_next h
  | storeHighC => exact storeA_next h
  | storeAbs t => exact storeA_next h
  | loadHigh o => exact loadA_next h
  | loadHighC => exact loadA_next h
  | loadAbs t => exact loadA_next h
  | rla => exact rotateA_next h
  | bit7 x =>
    obtain ⟨hf, hr, rfl⟩ := testBit7_next h
    exact ⟨⟨hf, hr⟩, rfl⟩

/-- An instruction that answers a next state met its form's conditions and left its form's state. -/
theorem exec_next {i : Instr} {s t : State} (h : exec i s = .next t) :
    completes i.form s ∧ t = afterForm i.form s :=
  formMeaning_next (exec_eq_formMeaning i s ▸ h)

/-! ### What the shared updates leave alone -/

@[simp] theorem storeResult_pc (op : AluOp) (v : Byte) (s : State) : (storeResult op v s).pc = s.pc := by
  cases op <;> rfl

@[simp] theorem storeResult_sp (op : AluOp) (v : Byte) (s : State) : (storeResult op v s).sp = s.sp := by
  cases op <;> rfl

@[simp] theorem storeResult_mem (op : AluOp) (v : Byte) (s : State) : (storeResult op v s).mem = s.mem := by
  cases op <;> rfl

@[simp] theorem storeResult_bootRomEnabled (op : AluOp) (v : Byte) (s : State) :
    (storeResult op v s).bootRomEnabled = s.bootRomEnabled := by
  cases op <;> rfl

@[simp] theorem storeResult_bootImage (op : AluOp) (v : Byte) (s : State) :
    (storeResult op v s).bootImage = s.bootImage := by
  cases op <;> rfl

@[simp] theorem storeResult_fault (op : AluOp) (v : Byte) (s : State) : (storeResult op v s).fault = s.fault := by
  cases op <;> rfl

@[simp] theorem afterModify_pc (m : Byte → Flags → MicroResult) (x : Slot) (s : State) :
    (afterModify m x s).pc = s.pc := by simp [afterModify]

@[simp] theorem afterModify_sp (m : Byte → Flags → MicroResult) (x : Slot) (s : State) :
    (afterModify m x s).sp = s.sp := by simp [afterModify]

@[simp] theorem afterModify_bootImage (m : Byte → Flags → MicroResult) (x : Slot) (s : State) :
    (afterModify m x s).bootImage = s.bootImage := by simp [afterModify]

@[simp] theorem afterModify_fault (m : Byte → Flags → MicroResult) (x : Slot) (s : State) :
    (afterModify m x s).fault = s.fault := by simp [afterModify]

@[simp] theorem afterPush_f (hi lo : Byte) (s : State) : (afterPush hi lo s).f = s.f := rfl
@[simp] theorem afterPush_pc (hi lo : Byte) (s : State) : (afterPush hi lo s).pc = s.pc := rfl
@[simp] theorem afterPush_sp (hi lo : Byte) (s : State) : (afterPush hi lo s).sp = s.sp - 2 := rfl
@[simp] theorem afterPush_bootImage (hi lo : Byte) (s : State) : (afterPush hi lo s).bootImage = s.bootImage := rfl
@[simp] theorem afterPush_fault (hi lo : Byte) (s : State) : (afterPush hi lo s).fault = s.fault := rfl

@[simp] theorem afterRead_f (s : State) (a : Word) : (afterRead s a).f = s.f := rfl

@[simp] theorem afterPop_f (s : State) : (afterPop s).f = s.f := by simp [afterPop]
@[simp] theorem afterPop_pc (s : State) : (afterPop s).pc = s.pc := by simp [afterPop]
@[simp] theorem afterPop_sp (s : State) : (afterPop s).sp = s.sp + 2 := by simp [afterPop]
@[simp] theorem afterPop_mem (s : State) : (afterPop s).mem = s.mem := by simp [afterPop]
@[simp] theorem afterPop_bootRomEnabled (s : State) : (afterPop s).bootRomEnabled = s.bootRomEnabled := by
  simp [afterPop]
@[simp] theorem afterPop_bootImage (s : State) : (afterPop s).bootImage = s.bootImage := by simp [afterPop]
@[simp] theorem afterPop_fault (s : State) : (afterPop s).fault = s.fault := by simp [afterPop]

/-! ### SP, PC, the boot image and the fault record -/

/-- The form's SP (10_state R30). -/
theorem afterForm_sp (fm : Form) (s : State) : (afterForm fm s).sp = spAfter fm s.sp := by
  cases fm with
  | ldPair p v => cases p <;> rfl
  | incPair p => cases p <;> rfl
  | decPair p => cases p <;> rfl
  | jrCond cc e => simp only [afterForm]; split <;> rfl
  | _ => simp [afterForm, spAfter]

/-- Only JR, JR cc, CALL and RET move PC (10_state R29). -/
theorem afterForm_pc {fm : Form} (s : State) (h : transfersControl fm = false) : (afterForm fm s).pc = s.pc := by
  cases fm with
  | ldPair p v => cases p <;> rfl
  | incPair p => cases p <;> rfl
  | decPair p => cases p <;> rfl
  | jr e => cases h
  | jrCond cc e => cases h
  | call t => cases h
  | ret => cases h
  | _ => simp [afterForm]

/-- No form changes the boot image or the fault record (10_state R32, 60_exceptions R241). -/
theorem afterForm_bootImage_fault (fm : Form) (s : State) :
    (afterForm fm s).bootImage = s.bootImage ∧ (afterForm fm s).fault = s.fault := by
  cases fm with
  | ldPair p v => cases p <;> exact ⟨rfl, rfl⟩
  | incPair p => cases p <;> exact ⟨rfl, rfl⟩
  | decPair p => cases p <;> exact ⟨rfl, rfl⟩
  | jrCond cc e => simp only [afterForm]; split <;> exact ⟨rfl, rfl⟩
  | _ => simp [afterForm]

end Sys2Proof.Machine
end

section
/-! PROOF. What a completed instruction does to memory and to the overlay enable: router writes at its form's addresses,
one after the other, and nothing else (20_memory R61, R62, R70). -/

namespace Sys2Proof.Machine

open Sys2Proof.Safety

/-- Memory and the overlay enable of the second state are the first one's after accepted router writes at these
addresses, in this order. -/
inductive Stores : List Word → State → State → Prop
  | nil {s t : State} (hm : t.mem = s.mem) (hb : t.bootRomEnabled = s.bootRomEnabled) : Stores [] s t
  | cons {a : Word} {as : List Word} {s t : State} (v : Byte) (hw : writable s a = true)
      (h : Stores as (afterWrite s a v) t) : Stores (a :: as) s t

/-! ### The writes of each form -/

@[simp] theorem afterSlotWrite_afterSlotRead_mem (x y : Slot) (v : Byte) (s : State) :
    (afterSlotWrite x v (afterSlotRead y s)).mem = (afterSlotWrite x v s).mem := by
  cases x <;> simp [afterSlotWrite, afterWrite]

@[simp] theorem afterSlotWrite_afterSlotRead_bootRomEnabled (x y : Slot) (v : Byte) (s : State) :
    (afterSlotWrite x v (afterSlotRead y s)).bootRomEnabled = (afterSlotWrite x v s).bootRomEnabled := by
  cases x <;> simp [afterSlotWrite, afterWrite]

/-- A state with the memory and the overlay of a write. -/
theorem stores_write {a : Word} {v : Byte} {s t : State} (hw : writable s a = true)
    (hm : t.mem = (afterWrite s a v).mem) (hb : t.bootRomEnabled = (afterWrite s a v).bootRomEnabled) :
    Stores [a] s t :=
  .cons v hw (.nil hm hb)

/-- A state with the memory and the overlay of a write of a slot: only (HL) stores. -/
theorem stores_slotWrite {x : Slot} {v : Byte} {s t : State} (hw : slotWritable x s = true)
    (hm : t.mem = (afterSlotWrite x v s).mem) (hb : t.bootRomEnabled = (afterSlotWrite x v s).bootRomEnabled) :
    Stores (slotStores x s) s t := by
  cases x with
  | atHL =>
    rw [slotStores, ← hlAddr_eq]
    exact stores_write hw hm hb
  | _ => exact .nil hm hb

theorem stores_modify {m : Byte → Flags → MicroResult} {x : Slot} {s : State} (hw : slotWritable x s = true) :
    Stores (slotStores x s) s (afterModify m x s) :=
  stores_slotWrite (v := (m (slotValue x s) (flagsOfByte s.f)).val) hw (by simp [afterModify])
    (by simp [afterModify])

/-- A state with the memory and the overlay of a push. -/
theorem stores_push {hi lo : Byte} {s t : State} (hw : pushWritable lo s = true)
    (hm : t.mem = (afterPush hi lo s).mem) (hb : t.bootRomEnabled = (afterPush hi lo s).bootRomEnabled) :
    Stores [s.sp, s.sp + 1] s t := by
  obtain ⟨h1, h2⟩ := Bool.and_eq_true_iff.1 hw
  exact .cons lo h1 (stores_write h2 hm hb)

/-- A completed form's writes are at its addresses, and its memory and overlay are theirs (20_memory R51). -/
theorem afterForm_stores {fm : Form} {s : State} (h : completes fm s) :
    Stores (storeAddrs fm s) s (afterForm fm s) := by
  cases fm with
  | ldPair p v => cases p <;> exact .nil rfl rfl
  | incPair p => cases p <;> exact .nil rfl rfl
  | decPair p => cases p <;> exact .nil rfl rfl
  | ldImm x v => exact stores_slotWrite h rfl rfl
  | ld x y =>
    obtain ⟨-, hw⟩ := h
    exact stores_slotWrite (v := slotValue y s) hw (by simp [afterForm]) (by simp [afterForm])
  | inc x =>
    obtain ⟨-, -, hw⟩ := h
    exact stores_modify hw
  | dec x =>
    obtain ⟨-, -, hw⟩ := h
    exact stores_modify hw
  | rl x =>
    obtain ⟨-, -, hw⟩ := h
    exact stores_modify hw
  | push q => exact stores_push h rfl rfl
  | call t => exact stores_push h rfl rfl
  | storeHigh o => exact stores_write h rfl rfl
  | storeHighC => exact stores_write h rfl rfl
  | storeAbs t => exact stores_write h rfl rfl
  | jrCond cc e => simp only [afterForm]; split <;> exact .nil rfl rfl
  | _ => exact .nil (by simp [afterForm]) (by simp [afterForm])

/-- A completed instruction stores at its form's addresses and nowhere else. -/
theorem exec_stores {i : Instr} {s t : State} (h : exec i s = .next t) : Stores (storeAddrs i.form s) s t := by
  obtain ⟨hc, rfl⟩ := exec_next h
  exact afterForm_stores hc

/-- No instruction stores twice at one address: the two stack addresses differ. -/
theorem storeAddrs_nodup (fm : Form) (s : State) : (storeAddrs fm s).Nodup := by
  have hslot (x : Slot) : (slotStores x s).Nodup := by cases x <;> simp [slotStores]
  have hstack : [s.sp, s.sp + 1].Nodup := by simp
  cases fm with
  | ldImm x v => exact hslot x
  | ld x y => exact hslot x
  | inc x => exact hslot x
  | dec x => exact hslot x
  | rl x => exact hslot x
  | push q => exact hstack
  | call t => exact hstack
  | _ => simp [storeAddrs]

/-! ### What writes keep -/

theorem afterWrite_read (s : State) (a : Word) (v : Byte) (x : Nat) :
    (afterWrite s a v).mem.read x = if x = a.toNat then v else s.mem.read x :=
  read_write s.mem a.toNat x v

theorem afterWrite_overlay_off {s : State} (a : Word) (v : Byte) (h : s.bootRomEnabled = false) :
    (afterWrite s a v).bootRomEnabled = false := by
  simp [afterWrite, h]

/-- Only a nonzero byte at 0xFF50 changes the overlay enable (20_memory R62). -/
theorem afterWrite_overlay_kept {s : State} {a : Word} {v : Byte} (h : ¬(a.toNat = 0xFF50 ∧ v ≠ 0)) :
    (afterWrite s a v).bootRomEnabled = s.bootRomEnabled :=
  if_neg h

/-- Writes leave the byte at every other address alone. -/
theorem Stores.read_kept {as : List Word} {s t : State} (h : Stores as s t) {x : Nat}
    (hx : ∀ a ∈ as, x ≠ a.toNat) : t.mem.read x = s.mem.read x := by
  induction h with
  | nil hm hb => rw [hm]
  | cons v hw h ih =>
    obtain ⟨hne, hx⟩ := List.forall_mem_cons.1 hx
    rw [ih hx, afterWrite_read, if_neg hne]

/-- Writes elsewhere than at 0xFF50 leave the overlay enable alone. -/
theorem Stores.overlay_kept {as : List Word} {s t : State} (h : Stores as s t)
    (hl : ∀ a ∈ as, a.toNat ≠ 0xFF50) : t.bootRomEnabled = s.bootRomEnabled := by
  induction h with
  | nil hm hb => exact hb
  | cons v hw h ih =>
    obtain ⟨hne, hl⟩ := List.forall_mem_cons.1 hl
    rw [ih hl, afterWrite_overlay_kept fun ha => hne ha.1]

/-- No write turns the overlay on (10_state R31). -/
theorem Stores.overlay_off {as : List Word} {s t : State} (h : Stores as s t) (hs : s.bootRomEnabled = false) :
    t.bootRomEnabled = false := by
  induction h with
  | nil hm hb => rw [hb, hs]
  | cons v hw h ih => exact ih (afterWrite_overlay_off _ v hs)

/-- Writes that turn the overlay off, each address once, leave a nonzero byte in the latch. -/
theorem Stores.latch_of_overlay_off {as : List Word} {s t : State} (h : Stores as s t) (hd : as.Nodup)
    (hs : s.bootRomEnabled = true) (ht : t.bootRomEnabled = false) : t.mem.read 0xFF50 ≠ 0 := by
  induction h with
  | nil hm hb => rw [hb, hs] at ht; cases ht
  | @cons a as s t v hw h ih =>
    obtain ⟨ha, hd⟩ := List.nodup_cons.1 hd
    by_cases hlatch : a.toNat = 0xFF50 ∧ v ≠ 0
    · obtain ⟨hlatch, hv⟩ := hlatch
      have hlater : ∀ b ∈ as, 0xFF50 ≠ b.toNat := fun b hb he =>
        ha (BitVec.eq_of_toNat_eq (hlatch.trans he) ▸ hb)
      rwa [h.read_kept hlater, afterWrite_read, if_pos hlatch.symm]
    · exact ih hd ((afterWrite_overlay_kept hlatch).trans hs) ht

end Sys2Proof.Machine
end

section
/-! PROOF. Register pairs as their two bytes (10_state R23, R24), and the masked low byte of AF. -/

namespace Sys2Proof.Machine

open Sys2Proof.Safety

theorem hiByte_eq_highOf (v : Word) : hiByte v = highOf v := by
  have := v.isLt
  apply BitVec.eq_of_toNat_eq
  rw [hiByte_toNat, highOf, BitVec.toNat_ofNat]
  omega

theorem loByte_eq_lowOf (v : Word) : loByte v = lowOf v := by
  apply BitVec.eq_of_toNat_eq
  rw [loByte_toNat, lowOf, BitVec.toNat_ofNat]
  omega

/-- AF's mask clears the low nibble: it is the byte shifted down by four and back. -/
theorem and_high_toNat (v : Byte) : (v &&& 0xF0#8).toNat = v.toNat / 16 * 16 := by
  have := v.isLt
  have hshift : v &&& 0xF0#8 = v >>> 4 <<< 4 := by
    rw [BitVec.shiftLeft_ushiftRight]
    rfl
  rw [hshift, BitVec.toNat_shiftLeft, BitVec.toNat_ushiftRight, Nat.shiftRight_eq_div_pow, Nat.shiftLeft_eq]
  omega

theorem and_high_eq (v : Byte) : v &&& 0xF0#8 = BitVec.ofNat 8 (v.toNat / 16 * 16) := by
  rw [← and_high_toNat, BitVec.ofNat_toNat, BitVec.setWidth_eq]

/-- A pair's read is its two registers, the first-named one high. -/
theorem getPair_eq_wordOf (s : State) (p : Pair) : s.getPair p = wordOf (pairHi p s) (pairLo p s) := by
  cases p <;> exact mkWord_eq_ofNat _ _

/-- A pair's write splits the value over its registers, AF's low byte masked. -/
theorem setPair_eq_withPair (s : State) (p : Pair) (v : Word) :
    s.setPair p v = withPair p (highOf v) (lowOf v) s := by
  cases p with
  | af => simp only [State.setPair, withPair, hiByte_eq_highOf, loByte_eq_lowOf, and_high_eq]
  | _ => simp only [State.setPair, withPair, hiByte_eq_highOf, loByte_eq_lowOf]

/-- Settles O13, from the read and the write of a pair. -/
theorem pairsComposeAndSplit : Obligations.PairsComposeAndSplit :=
  fun s p v => ⟨getPair_eq_wordOf s p, setPair_eq_withPair s p v⟩

end Sys2Proof.Machine
end

section
/-! PROOF. The frames of 10_state: which registers, which bits of F and which control state a completed instruction
leaves alone. -/

namespace Sys2Proof.Machine

open Sys2Proof.Safety

/-! ### Registers -/

@[simp] theorem getReg_afterRead (s : State) (a : Word) (r : Reg8) : (afterRead s a).getReg r = s.getReg r := by
  cases r <;> rfl

@[simp] theorem getReg_afterWrite (s : State) (a : Word) (v : Byte) (r : Reg8) :
    (afterWrite s a v).getReg r = s.getReg r := by
  cases r <;> rfl

@[simp] theorem getReg_afterSlotRead (x : Slot) (s : State) (r : Reg8) :
    (afterSlotRead x s).getReg r = s.getReg r := by
  cases x with
  | atHL => exact getReg_afterRead s (hlAddr s) r
  | _ => rfl

@[simp] theorem getReg_afterSrcRead (src : AluSrc) (s : State) (r : Reg8) :
    (afterSrcRead src s).getReg r = s.getReg r := by
  cases src with
  | slot x => exact getReg_afterSlotRead x s r
  | imm v => rfl

@[simp] theorem getReg_afterPush (hi lo : Byte) (s : State) (r : Reg8) : (afterPush hi lo s).getReg r = s.getReg r := by
  cases r <;> rfl

@[simp] theorem getReg_afterPop (s : State) (r : Reg8) : (afterPop s).getReg r = s.getReg r := by
  cases r <;> simp only [afterPop, State.getReg, afterRead]

theorem getReg_setReg_of_ne {r q : Reg8} (h : r ≠ q) (s : State) (v : Byte) :
    (s.setReg q v).getReg r = s.getReg r := by
  rw [getReg_setReg, if_neg h]

/-- A pair's write is two register writes. -/
theorem setPair_eq_setReg (s : State) (p : Pair) (v : Word) :
    ∃ hi lo : Reg8, ∃ b₁ b₂ : Byte, pairRegs p = [hi, lo] ∧ s.setPair p v = (s.setReg hi b₁).setReg lo b₂ := by
  cases p with
  | af => exact ⟨_, _, hiByte v, loByte v &&& 0xF0#8, rfl, rfl⟩
  | _ => exact ⟨_, _, hiByte v, loByte v, rfl, rfl⟩

theorem getReg_setPair_of_notMem {r : Reg8} {p : Pair} (h : r ∉ pairRegs p) (s : State) (v : Word) :
    (s.setPair p v).getReg r = s.getReg r := by
  obtain ⟨hi, lo, b₁, b₂, hp, he⟩ := setPair_eq_setReg s p v
  rw [hp, List.mem_pair, not_or] at h
  obtain ⟨hhi, hlo⟩ := h
  rw [he, getReg_setReg_of_ne hlo, getReg_setReg_of_ne hhi]

theorem getReg_afterSlotWrite_of_notMem {r : Reg8} {x : Slot} (h : r ∉ slotRegs x) (v : Byte) (s : State) :
    (afterSlotWrite x v s).getReg r = s.getReg r := by
  cases x with
  | atHL => exact getReg_afterWrite s (hlAddr s) v r
  | _ => exact getReg_setReg_of_ne (List.ne_of_not_mem_cons h) s v

theorem getReg_afterModify_of_notMem {r : Reg8} {x : Slot} (hf : r ≠ .f) (h : r ∉ slotRegs x)
    (m : Byte → Flags → MicroResult) (s : State) : (afterModify m x s).getReg r = s.getReg r := by
  rw [afterModify, getReg_setReg_of_ne hf, getReg_afterSlotWrite_of_notMem h, getReg_afterSlotRead]

theorem getReg_storeResult_of_notMem {r : Reg8} {op : AluOp} {src : AluSrc} (h : r ∉ writtenRegs (.alu op src))
    (v : Byte) (s : State) : (storeResult op v s).getReg r = s.getReg r := by
  cases op with
  | cp => rfl
  | _ => exact getReg_setReg_of_ne (List.ne_of_not_mem_cons h) s v

/-- Every register but F outside the access table's row keeps its byte (10_state R21). -/
theorem afterForm_getReg {fm : Form} {r : Reg8} (hf : r ≠ .f) (h : r ∉ writtenRegs fm) (s : State) :
    (afterForm fm s).getReg r = s.getReg r := by
  have hload (s₁ : State) (v : Byte) (h : r ∉ [Reg8.a]) : (s₁.setReg .a v).getReg r = s₁.getReg r :=
    getReg_setReg_of_ne (List.ne_of_not_mem_cons h) s₁ v
  cases fm with
  | ldPair p v =>
    cases p with
    | sp => exact getReg_setSP s v r
    | _ => exact getReg_setPair_of_notMem h s v
  | incPair p =>
    cases p with
    | sp => rfl
    | _ => exact getReg_setPair_of_notMem h s _
  | decPair p =>
    cases p with
    | sp => rfl
    | _ => exact getReg_setPair_of_notMem h s _
  | ldImm x v => exact getReg_afterSlotWrite_of_notMem h v s
  | ld x y => rw [afterForm, getReg_afterSlotWrite_of_notMem h, getReg_afterSlotRead]
  | inc x => exact getReg_afterModify_of_notMem hf h increment s
  | dec x => exact getReg_afterModify_of_notMem hf h decrement s
  | rl x => exact getReg_afterModify_of_notMem hf h rl8 s
  | alu op src => rw [afterForm, getReg_setReg_of_ne hf, getReg_storeResult_of_notMem h, getReg_afterSrcRead]
  | pop q => rw [afterForm, getReg_setPair_of_notMem h, getReg_afterPop]
  | jrCond cc e => simp only [afterForm]; split <;> simp
  | loadHigh o => rw [afterForm, hload _ _ h, getReg_afterRead]
  | loadHighC => rw [afterForm, hload _ _ h, getReg_afterRead]
  | loadAbs t => rw [afterForm, hload _ _ h, getReg_afterRead]
  | rla => rw [afterForm, getReg_setReg_of_ne hf, hload _ _ h]
  | bit7 x => rw [afterForm, getReg_setReg_of_ne hf, getReg_afterSlotRead]
  | _ => simp [afterForm]

/-- Settles O47, from the register frame of the state a form leaves. -/
theorem registerFrame : Obligations.RegisterFrame := by
  intro i s t h r hf hr
  obtain ⟨-, rfl⟩ := exec_next h
  exact afterForm_getReg hf hr s

/-! ### Flags -/

/-- What a completed form does to F: it keeps it, or it writes flags over a valid F, C being the old one unless the flag
table gives it C (10_state R27), or it is POP AF, whose F is masked (10_state R24). -/
inductive FlagEffect (fm : Form) (s t : State) : Prop
  | kept (h : t.f = s.f)
  | written (fl : Flags) (hs : flagsOk s) (ht : t.f = fl.toByte) (hznh : [7, 6, 5] ⊆ writtenFlags fm)
      (hc : 4 ∉ writtenFlags fm → fl.c = (flagsOfByte s.f).c)
  | popped (hfm : fm = .pop .af) (ht : flagsOk t)

/-- The forms that are given all four flags. -/
theorem FlagEffect.writtenAll {fm : Form} {s t : State} (hfm : writtenFlags fm = [7, 6, 5, 4]) (fl : Flags)
    (hs : flagsOk s) (ht : t.f = fl.toByte) : FlagEffect fm s t :=
  .written fl hs ht (by rw [hfm]; decide) fun h => absurd (by rw [hfm]; decide) h

@[simp] theorem afterWrite_f (s : State) (a : Word) (v : Byte) : (afterWrite s a v).f = s.f := rfl

/-- AF's write leaves F with a zero low nibble (10_state R24). -/
theorem flagsOk_setPair_af (s : State) (v : Word) : flagsOk (s.setPair .af v) := by
  rw [flagsOk, show (s.setPair .af v).f = loByte v &&& 0xF0#8 from rfl, and_high_toNat]
  exact Nat.mul_mod_left _ _

theorem afterForm_flagEffect {fm : Form} {s : State} (h : completes fm s) : FlagEffect fm s (afterForm fm s) := by
  cases fm with
  | ldPair p v => cases p <;> exact .kept rfl
  | incPair p => cases p <;> exact .kept rfl
  | decPair p => cases p <;> exact .kept rfl
  | inc x =>
    obtain ⟨hf, -, -⟩ := h
    exact .written _ hf rfl (List.Subset.refl _) fun _ => rfl
  | dec x =>
    obtain ⟨hf, -, -⟩ := h
    exact .written _ hf rfl (List.Subset.refl _) fun _ => rfl
  | bit7 x =>
    obtain ⟨hf, -⟩ := h
    exact .written _ hf rfl (List.Subset.refl _) fun _ => rfl
  | rl x =>
    obtain ⟨hf, -, -⟩ := h
    exact .writtenAll rfl _ hf rfl
  | alu op src =>
    obtain ⟨hf, -⟩ := h
    exact .writtenAll rfl _ hf rfl
  | rla => exact .writtenAll rfl _ h rfl
  | pop q =>
    cases q with
    | af => exact .popped rfl (flagsOk_setPair_af _ _)
    | _ => exact .kept (afterPop_f s)
  | jrCond cc e => simp only [afterForm]; split <;> exact .kept rfl
  | _ => exact .kept (by simp [afterForm, State.setReg])

theorem exec_flagEffect {i : Instr} {s t : State} (h : exec i s = .next t) : FlagEffect i.form s t := by
  obtain ⟨hc, rfl⟩ := exec_next h
  exact afterForm_flagEffect hc

/-- A byte made from flags has a zero low nibble (10_state R25). -/
theorem flagsOk_of_toByte {s : State} {fl : Flags} (h : s.f = fl.toByte) : flagsOk s := by
  rw [flagsOk, h, toByte_eq]
  exact flagByte_low ..

theorem FlagEffect.flagsOk {fm : Form} {s t : State} (h : FlagEffect fm s t) (hs : flagsOk s) : flagsOk t := by
  cases h with
  | kept h => rwa [Safety.flagsOk, h]
  | written fl hs ht hznh hc => exact flagsOk_of_toByte ht
  | popped hfm ht => exact ht

/-- Bits 3-0 of a valid F are clear. -/
theorem getLsbD_of_flagsOk {s : State} (h : flagsOk s) {k : Nat} (hk : k < 4) : s.f.getLsbD k = false := by
  rw [flagsOk] at h
  rw [getLsbD_eq_div, beq_eq_false_iff_ne]
  interval_cases k <;> omega

/-- Bit 4 of F is the flag C (10_state R26). -/
theorem getLsbD_four_toByte (fl : Flags) : fl.toByte.getLsbD 4 = fl.c := by
  obtain ⟨-, -, -, hc, -⟩ := flagByte_bits fl.z fl.n fl.h fl.c
  rw [toByte_eq, hc]

/-- A bit of F the flag table does not give the form is the old one: bits 3-0 of two valid bytes, or C. -/
theorem FlagEffect.bit_kept {fm : Form} {s t : State} (h : FlagEffect fm s t) {k : Nat} (hk : k < 8)
    (hw : k ∉ writtenFlags fm) : t.f.getLsbD k = s.f.getLsbD k := by
  cases h with
  | kept h => rw [h]
  | popped hfm ht =>
    subst hfm
    interval_cases k <;> simp [writtenFlags] at hw
  | written fl hs ht hznh hc =>
    have hznh : k ∉ [7, 6, 5] := mt (@hznh k) hw
    obtain hlow | rfl : k < 4 ∨ k = 4 := by simp at hznh; omega
    · rw [getLsbD_of_flagsOk (flagsOk_of_toByte ht) hlow, getLsbD_of_flagsOk hs hlow]
    · rw [ht, getLsbD_four_toByte, hc hw]
      rfl

/-- Settles O48, from what a completed form does to F. -/
theorem flagFrame : Obligations.FlagFrame :=
  fun _ _ _ h _ hk hw => (exec_flagEffect h).bit_kept hk hw

/-! ### Control -/

/-- Settles O50: SP, PC, the boot image and the fault record from the state a form leaves, the overlay enable from its
writes. -/
theorem controlFrame : Obligations.ControlFrame := by
  intro i s t h
  have hstores := exec_stores h
  obtain ⟨-, rfl⟩ := exec_next h
  exact ⟨afterForm_sp _ s, afterForm_pc s, hstores.overlay_kept, afterForm_bootImage_fault _ s⟩

end Sys2Proof.Machine
end

section
/-! PROOF. A step is a fetch, which moves PC and counts draws, and an instruction from the state after it; a run is
steps. -/

namespace Sys2Proof.Machine

open Sys2Proof.Safety

/-! ### Fetch -/

/-- The two states differ at most in PC and in the count of draws. -/
def SameButFetch (s t : State) : Prop := ∃ (pc : Word) (n : Nat), t = { s with pc := pc, draws := n }

theorem SameButFetch.trans {s t u : State} (h : SameButFetch s t) (h' : SameButFetch t u) : SameButFetch s u := by
  obtain ⟨pc, n, rfl⟩ := h
  obtain ⟨pc', n', rfl⟩ := h'
  exact ⟨pc', n', rfl⟩

theorem SameButFetch.bootRomEnabled {s t : State} (h : SameButFetch s t) : t.bootRomEnabled = s.bootRomEnabled := by
  obtain ⟨pc, n, rfl⟩ := h
  rfl

theorem sameButFetch_of_fetch8 {s t : State} {v : Byte} (h : fetch8 s = .ok v t) : SameButFetch s t := by
  obtain ⟨-, -, rfl⟩ := fetch8_ok h
  exact ⟨_, _, rfl⟩

theorem sameButFetch_of_fetch16 {s t : State} {v : Word} (h : fetch16 s = .ok v t) : SameButFetch s t := by
  obtain ⟨lo, s1, h1, h⟩ := andThen_eq_ok.1 h
  obtain ⟨hi, s2, h2, h⟩ := andThen_eq_ok.1 h
  cases h
  exact (sameButFetch_of_fetch8 h1).trans (sameButFetch_of_fetch8 h2)

/-- Fetching an instruction changes PC and the count of draws only (30_encoding R91, 20_memory R70). -/
theorem sameButFetch_of_fetchInstr {s t : State} {i : Instr} (h : fetchInstr s = .ok i t) : SameButFetch s t := by
  obtain ⟨op, s1, h1, h⟩ := andThen_eq_ok.1 h
  have hop := sameButFetch_of_fetch8 h1
  cases he : primaryEntry op with
  | op i' =>
    simp only [he] at h
    cases h
    exact hop
  | imm8 mk =>
    simp only [he] at h
    obtain ⟨v, s2, h2, h⟩ := andThen_eq_ok.1 h
    cases h
    exact hop.trans (sameButFetch_of_fetch8 h2)
  | imm16 mk =>
    simp only [he] at h
    obtain ⟨v, s2, h2, h⟩ := andThen_eq_ok.1 h
    cases h
    exact hop.trans (sameButFetch_of_fetch16 h2)
  | extended =>
    simp only [he] at h
    obtain ⟨op2, s2, h2, h⟩ := andThen_eq_ok.1 h
    cases hx : extendedEntry op2 with
    | none => simp only [hx] at h; cases h
    | some i' =>
      simp only [hx] at h
      cases h
      exact hop.trans (sameButFetch_of_fetch8 h2)
  | unlisted => simp only [he] at h; cases h

/-! ### Step and run -/

/-- A step that answers a next state fetched an instruction and ran it. -/
theorem step_next {s t : State} (h : step s = .next t) :
    ∃ i s1, fetchInstr s = .ok i s1 ∧ exec i s1 = .next t := by
  unfold step at h
  split at h
  · cases h
  · split at h
    · next i s1 hi => exact ⟨i, s1, hi, h⟩
    · cases h

/-- A step of a running state that faults faults in its fetch or in its instruction. -/
theorem step_fault {s : State} {r : Fault} (hs : s.fault = none) (h : step s = .fault r) :
    fetchInstr s = .fault r ∨ ∃ i s1, fetchInstr s = .ok i s1 ∧ exec i s1 = .fault r := by
  simp only [step, hs] at h
  split at h
  · next i s1 hi => exact .inr ⟨i, s1, hi, h⟩
  · next e he => cases h; exact .inl he

/-- A property that every step keeps holds at the end of every run. -/
theorem run_next_of_step {M : Host.Core} {P : M.State → Prop}
    (hstep : ∀ s t, P s → M.step s = .next t → P t) {n : Nat} {s t : M.State} (hs : P s)
    (h : M.run n s = .next t) : P t := by
  induction n generalizing s with
  | zero => cases h; exact hs
  | succ n ih =>
    rw [Host.Core.run] at h
    split at h
    · next u hu => exact ih (hstep s u hs hu) h
    · cases h
    · cases h

/-- A run that faults does so in the step of a state that has every property the steps keep. -/
theorem run_fault_of_step {M : Host.Core} {P : M.State → Prop}
    (hstep : ∀ s t, P s → M.step s = .next t → P t) {n : Nat} {s : M.State} {r : M.Fault} (hs : P s)
    (h : M.run n s = .fault r) : ∃ u, P u ∧ M.step u = .fault r := by
  induction n generalizing s with
  | zero => cases h
  | succ n ih =>
    rw [Host.Core.run] at h
    split at h
    · next u hu => exact ih (hstep s u hs hu) h
    · next e he => cases h; exact ⟨s, hs, he⟩
    · cases h

end Sys2Proof.Machine
end

section
/-! PROOF. The invariant of every reachable state: at reset, at every session's start, and kept by every step. -/

namespace Sys2Proof.Machine

open Sys2Proof.Safety

/-! ### Canonical memory -/

theorem wf_afterWrite {s : State} (a : Word) (v : Byte) (h : s.mem.wf = true) : (afterWrite s a v).mem.wf = true :=
  wf_write v h a.isLt

/-- Settles O17, from the state an accepted write leaves. -/
theorem writesKeepMemoryCanonical : Obligations.WritesKeepMemoryCanonical := by
  intro s t a v hs h
  obtain ⟨-, rfl⟩ := memWrite_ok h
  exact wf_afterWrite a v hs

/-! ### The start -/

theorem unmodeledAddr_high {a : Word} (h : unmodeledAddr a = true) : 0xFF00 ≤ a.toNat := by
  simp only [unmodeledAddr, decide_eq_true_eq] at h
  omega

/-- The invariant holds before the first step: nothing is stored from 0x8000 on, F is 0 and no fault is recorded. -/
theorem inv_of_start {s : State} (hwf : s.mem.wf = true) (hread : ∀ a, 0x8000 ≤ a → s.mem.read a = 0) (hf : s.f = 0)
    (hfault : s.fault = none) : Inv s where
  memCanonical := hwf
  flagsLowZero := by rw [flagsOk, hf]; rfl
  latchClosed h := absurd (hread 0xFF50 (by decide)) h
  scanlineUnwritten := hread 0xFF44 (by decide)
  bandUnwritten a ha := hread a.toNat (le_trans (by decide) (unmodeledAddr_high ha))
  running := hfault

/-- Settles O18, by computing the reset state. -/
theorem resetState : Obligations.ResetState := by
  refine ⟨fun r => by cases r <;> rfl, rfl, rfl, rfl, rfl, ?firstByte, fun _ _ => rfl⟩
  case firstByte => exact memRead_overlay (by decide) rfl

/-- Settles O51: the memory is empty. -/
theorem invAtReset : Obligations.InvAtReset :=
  inv_of_start rfl (fun _ _ => rfl) rfl rfl

/-- Settles O52: the memory is a cartridge image of 32,768 bytes. -/
theorem invAtEverySessionStart : Obligations.InvAtEverySessionStart := by
  intro boot cart hlen
  have hwf : (resetWith boot cart).mem.wf = true := wfFrom_ofImage (by omega)
  have hread : ∀ a, 0x8000 ≤ a → (resetWith boot cart).mem.read a = 0 := by
    intro a ha
    rw [read_resetWith, List.getElem?_eq_none (hlen.trans_le ha), Option.getD_none]
  exact inv_of_start hwf hread rfl rfl

/-! ### The step -/

/-- An accepted write is outside the unmodeled band and is not the scanline register's (20_memory R58, R63). -/
theorem unmodeledAddr_of_writable {s : State} {a : Word} (h : writable s a = true) :
    unmodeledAddr a = false ∧ a.toNat ≠ 0xFF44 := by
  simp only [writable, Bool.and_eq_true, Bool.not_eq_true', bne_iff_ne] at h
  exact h.1

/-- An accepted router write keeps the invariant: it never reaches the scanline register or the band, and a nonzero byte
it puts in the latch turns the overlay off (20_memory R58, R62, R63). -/
theorem inv_afterWrite {s : State} {a : Word} (v : Byte) (h : Inv s) (hw : writable s a = true) :
    Inv (afterWrite s a v) := by
  obtain ⟨hband, hly⟩ := unmodeledAddr_of_writable hw
  constructor
  case memCanonical => exact wf_afterWrite a v h.memCanonical
  case flagsLowZero => exact h.flagsLowZero
  case running => exact h.running
  case latchClosed =>
    intro hread
    by_cases hlatch : a.toNat = 0xFF50
    · rw [afterWrite_read, if_pos hlatch.symm] at hread
      exact if_pos ⟨hlatch, hread⟩
    · rw [afterWrite_read, if_neg (Ne.symm hlatch)] at hread
      exact afterWrite_overlay_off a v (h.latchClosed hread)
  case scanlineUnwritten =>
    rw [afterWrite_read, if_neg (Ne.symm hly)]
    exact h.scanlineUnwritten
  case bandUnwritten =>
    intro b hb
    have hne : b.toNat ≠ a.toNat := fun he => by
      rw [BitVec.eq_of_toNat_eq he, hband] at hb
      cases hb
    rw [afterWrite_read, if_neg hne]
    exact h.bandUnwritten b hb

/-- The invariant speaks of memory, the overlay enable, F and the fault record only. -/
theorem inv_of_eq {s t : State} (h : Inv s) (hm : t.mem = s.mem) (hb : t.bootRomEnabled = s.bootRomEnabled)
    (hf : flagsOk t) (hr : t.fault = none) : Inv t where
  memCanonical := hm ▸ h.memCanonical
  flagsLowZero := hf
  latchClosed hl := hb ▸ h.latchClosed (hm ▸ hl)
  scanlineUnwritten := hm ▸ h.scanlineUnwritten
  bandUnwritten := hm ▸ h.bandUnwritten
  running := hr

theorem Stores.inv {as : List Word} {s t : State} (hst : Stores as s t) (h : Inv s) (hf : flagsOk t)
    (hr : t.fault = none) : Inv t := by
  induction hst with
  | nil hm hb => exact inv_of_eq h hm hb hf hr
  | cons v hw _ ih => exact ih (inv_afterWrite v h hw) hf hr

theorem inv_of_sameButFetch {s t : State} (hst : SameButFetch s t) (h : Inv s) : Inv t := by
  obtain ⟨pc, n, rfl⟩ := hst
  exact inv_of_eq h rfl rfl h.flagsLowZero h.running

/-- A completed instruction keeps the invariant: its writes do, and F stays valid. -/
theorem exec_keeps_inv {i : Instr} {s t : State} (h : exec i s = .next t) (hs : Inv s) : Inv t := by
  have hstores := exec_stores h
  have hflags : flagsOk t := (exec_flagEffect h).flagsOk hs.flagsLowZero
  obtain ⟨-, rfl⟩ := exec_next h
  obtain ⟨-, hfault⟩ := afterForm_bootImage_fault i.form s
  exact hstores.inv hs hflags (hfault.trans hs.running)

/-- Settles O53: the fetch keeps the invariant, and so does the instruction. -/
theorem stepKeepsInv : Obligations.StepKeepsInv := by
  intro s t hs h
  obtain ⟨i, s1, hi, he⟩ := step_next h
  exact exec_keeps_inv he (inv_of_sameButFetch (sameButFetch_of_fetchInstr hi) hs)

/-! ### The overlay -/

/-- No step turns the overlay on (10_state R31). -/
theorem step_overlay_off {s t : State} (hs : s.bootRomEnabled = false) (h : step s = .next t) :
    t.bootRomEnabled = false := by
  obtain ⟨i, s1, hi, he⟩ := step_next h
  exact (exec_stores he).overlay_off ((sameButFetch_of_fetchInstr hi).bootRomEnabled.trans hs)

/-- Settles O56, by the run's induction. -/
theorem overlayNeverComesBack : Obligations.OverlayNeverComesBack :=
  fun _ _ _ =>
  run_next_of_step (M := Sys2Proof.core) (P := fun u : State => u.bootRomEnabled = false) fun _ _ => step_overlay_off

/-- Settles O57: among the step's writes, each at another address, one put a nonzero byte in the latch. -/
theorem onlyTheLatchDisablesTheOverlay : Obligations.OnlyTheLatchDisablesTheOverlay := by
  intro s t h hs ht
  obtain ⟨i, s1, hi, he⟩ := step_next h
  have hs1 : s1.bootRomEnabled = true := (sameButFetch_of_fetchInstr hi).bootRomEnabled.trans hs
  exact (exec_stores he).latch_of_overlay_off (storeAddrs_nodup i.form s1) hs1 ht

end Sys2Proof.Machine
end

section
/-! PROOF. The check of F's low nibble: on a nonzero one every flag accessor raises InvariantViolation (10_state R28,
60_exceptions R244), and from a session's start none is ever met. -/

namespace Sys2Proof.Machine

open Sys2Proof.Safety

/-! ### A nonzero low nibble -/

/-- The answer is InvariantViolation, recorded, with F and memory those of `s`. -/
def ViolatesFlags (answer : StepResult) (s : State) : Prop :=
  ∃ t, answer = .fault (.invariantViolation t) ∧ t.fault = some .invariantViolation ∧ t.f = s.f ∧ t.mem = s.mem

theorem violatesFlags_raise {α : Type} {s t : State} (hf : t.f = s.f) (hm : t.mem = s.mem) :
    ViolatesFlags (raise .invariantViolation t : Res α).done s :=
  ⟨_, rfl, rfl, hf, hm⟩

/-- Two states with one F are valid together. -/
theorem flagsOk_congr {s t : State} (h : t.f = s.f) : flagsOk t ↔ flagsOk s := by
  rw [flagsOk, flagsOk, h]

theorem modifySlot_violates {m : Byte → Flags → MicroResult} {x : Slot} {s : State} (hr : slotReadable x s = true)
    (hf : ¬flagsOk s) : ViolatesFlags (modifySlot m x s) s := by
  have hf' : ¬flagsOk (afterSlotRead x s) := mt (flagsOk_congr (afterSlotRead_f x s)).1 hf
  rw [modifySlot, getSlot_eq, if_pos hr, ok_andThen, getFlags_violation hf', raise_andThen]
  exact violatesFlags_raise (afterSlotRead_f x s) (afterSlotRead_mem x s)

theorem testBit7_violates {x : Slot} {s : State} (hr : slotReadable x s = true) (hf : ¬flagsOk s) :
    ViolatesFlags (testBit7 x s) s := by
  have hf' : ¬flagsOk (afterSlotRead x s) := mt (flagsOk_congr (afterSlotRead_f x s)).1 hf
  rw [testBit7, getSlot_eq, if_pos hr, ok_andThen, getFlags_violation hf', raise_andThen]
  exact violatesFlags_raise (afterSlotRead_f x s) (afterSlotRead_mem x s)

/-- An accumulator operation writes its flags after A: the violation's state has the new A (log entry 6). -/
theorem accumulate_violates {op : AluOp} {src : AluSrc} {s : State} (hr : srcReadable src s = true) (hf : ¬flagsOk s) :
    ViolatesFlags (accumulate op src s) s := by
  have hkept (v : Byte) : (storeResult op v (afterSrcRead src s)).f = s.f := by simp
  rw [accumulate, getSrc_eq, if_pos hr, ok_andThen, setFlags_violation _ (mt (flagsOk_congr (hkept _)).1 hf)]
  exact violatesFlags_raise (hkept _) (by simp)

theorem jumpCond_violates {cc : Cond} {e : Byte} {s : State} (hf : ¬flagsOk s) : ViolatesFlags (jumpCond cc e s) s := by
  rw [jumpCond, getFlags_violation hf]
  exact violatesFlags_raise rfl rfl

theorem rotateA_violates {s : State} (hf : ¬flagsOk s) : ViolatesFlags (rotateA s) s := by
  rw [rotateA, getFlags_violation hf]
  exact violatesFlags_raise rfl rfl

/-- A form that runs a flag accessor meets the violation once its operand is read. -/
theorem formMeaning_violates {fm : Form} {s : State} {src : AluSrc} (h : flagOperand fm = some src)
    (hr : srcReadable src s = true) (hf : ¬flagsOk s) : ViolatesFlags (formMeaning fm s) s := by
  cases fm with
  | inc x => cases h; exact modifySlot_violates hr hf
  | dec x => cases h; exact modifySlot_violates hr hf
  | rl x => cases h; exact modifySlot_violates hr hf
  | bit7 x => cases h; exact testBit7_violates hr hf
  | alu op src' => cases h; exact accumulate_violates hr hf
  | jrCond cc e => exact jumpCond_violates hf
  | rla => exact rotateA_violates hf
  | _ => cases h

/-- Settles O46, by form. -/
theorem flagAccessorChecksF : Obligations.FlagAccessorChecksF := by
  intro i s src h hr hf
  rw [exec_eq_formMeaning]
  exact formMeaning_violates h hr hf

/-! ### A valid F: only accesses fault -/

/-- Every fault the operation can end in meets `Q`. -/
def FaultsMeet {α : Type} (Q : Fault → Prop) (r : Res α) : Prop := ∀ e, r = .fault e → Q e

theorem faultsMeet_ok {α : Type} {Q : Fault → Prop} (v : α) (s : State) : FaultsMeet Q (Res.ok v s) := by
  intro e h
  cases h

theorem FaultsMeet.andThen {α β : Type} {Q : Fault → Prop} {r : Res α} {k : α → State → Res β} (hr : FaultsMeet Q r)
    (hk : ∀ v s, r = .ok v s → FaultsMeet Q (k v s)) : FaultsMeet Q (r.andThen k) := by
  intro e h
  obtain h | ⟨v, s, hv, h⟩ := andThen_eq_fault.1 h
  · exact hr e h
  · exact hk v s hv e h

theorem FaultsMeet.mono {α : Type} {Q Q' : Fault → Prop} {r : Res α} (hr : FaultsMeet Q r) (hQ : ∀ e, Q e → Q' e) :
    FaultsMeet Q' r :=
  fun e h => hQ e (hr e h)

/-- The fault is an access the router refuses in the state `s`: any access of the unmodeled band, or a write that is
not writable (60_exceptions R243). -/
def RefusedAccess (s : State) (e : Fault) : Prop :=
  ∃ a k fin, e = .illegalMemoryAccess a k fin ∧ (readable a = false ∨ k = .write ∧ writable s a = false)

theorem memRead_refuses (s : State) (a : Word) (t : State) : FaultsMeet (RefusedAccess s) (memRead a t) := by
  intro e h
  rw [memRead_eq] at h
  split at h
  · cases h
  · next hr => cases h; exact ⟨a, .read, _, rfl, .inl (eq_false_of_ne_true hr)⟩

/-- An address that is writable stays so when the overlay goes off. -/
theorem writable_mono {s t : State} {a : Word} (hb : t.bootRomEnabled = true → s.bootRomEnabled = true)
    (h : writable s a = true) : writable t a = true := by
  cases ht : t.bootRomEnabled with
  | true => simpa only [writable, overlaid, ht, hb ht] using h
  | false => simp_all [writable, overlaid]

theorem memWrite_refuses {s t : State} (hb : t.bootRomEnabled = true → s.bootRomEnabled = true) (a : Word) (v : Byte) :
    FaultsMeet (RefusedAccess s) (memWrite a v t) := by
  intro e h
  rw [memWrite_eq] at h
  split at h
  · cases h
  · next hw => cases h; exact ⟨a, .write, _, rfl, .inr ⟨rfl, eq_false_of_ne_true (mt (writable_mono hb) hw)⟩⟩

theorem getSlot_refuses (s : State) (x : Slot) (t : State) : FaultsMeet (RefusedAccess s) (getSlot x t) := by
  cases x with
  | atHL => exact memRead_refuses s _ t
  | _ => exact faultsMeet_ok _ _

theorem setSlot_refuses {s t : State} (hb : t.bootRomEnabled = true → s.bootRomEnabled = true) (x : Slot) (v : Byte) :
    FaultsMeet (RefusedAccess s) (setSlot x v t) := by
  cases x with
  | atHL => exact memWrite_refuses hb _ v
  | _ => exact faultsMeet_ok _ _

theorem getSrc_refuses (s : State) (src : AluSrc) (t : State) : FaultsMeet (RefusedAccess s) (getSrc src t) := by
  cases src with
  | slot x => exact getSlot_refuses s x t
  | imm v => exact faultsMeet_ok _ _

theorem getFlags_faultsMeet {Q : Fault → Prop} {s : State} (hf : flagsOk s) : FaultsMeet Q (getFlags s) := by
  rw [getFlags_ok hf]
  exact faultsMeet_ok _ _

theorem setFlags_faultsMeet {Q : Fault → Prop} {s : State} (fl : Flags) (hf : flagsOk s) :
    FaultsMeet Q (setFlags fl s) := by
  rw [setFlags_ok fl hf]
  exact faultsMeet_ok _ _

theorem push16_refuses (v : Word) (s : State) : FaultsMeet (RefusedAccess s) (push16 v s) := by
  refine (memWrite_refuses id _ _).andThen fun _ s1 h1 => ?_
  obtain ⟨-, rfl⟩ := memWrite_ok h1
  have hb : (afterWrite s s.sp (loByte v)).bootRomEnabled = true → s.bootRomEnabled = true := fun h =>
    Bool.of_not_eq_false fun hs => Bool.noConfusion (h.symm.trans (afterWrite_overlay_off _ _ hs))
  exact (memWrite_refuses hb _ _).andThen fun _ _ _ => faultsMeet_ok _ _

theorem pop16_refuses (s : State) : FaultsMeet (RefusedAccess s) (pop16 s) :=
  (memRead_refuses s _ _).andThen fun _ _ _ => (memRead_refuses s _ _).andThen fun _ _ _ => faultsMeet_ok _ _

/-! ### Instructions -/

theorem move_fault {x y : Slot} {s : State} {e : Fault} (h : move x y s = .fault e) : RefusedAccess s e := by
  refine ((getSlot_refuses s y s).andThen fun v s1 h1 => ?_) e (done_eq_fault.1 h)
  obtain ⟨-, -, rfl⟩ := getSlot_ok h1
  exact setSlot_refuses (by simp) x v

theorem modifySlot_fault {m : Byte → Flags → MicroResult} {x : Slot} {s : State} {e : Fault} (hf : flagsOk s)
    (h : modifySlot m x s = .fault e) : RefusedAccess s e := by
  have hf1 : flagsOk (afterSlotRead x s) := (flagsOk_congr (afterSlotRead_f x s)).2 hf
  refine ((getSlot_refuses s x s).andThen fun v s1 h1 => ?_) e (done_eq_fault.1 h)
  obtain ⟨-, -, rfl⟩ := getSlot_ok h1
  refine (getFlags_faultsMeet hf1).andThen fun fl s2 h2 => ?_
  obtain ⟨-, -, rfl⟩ := getFlags_inv h2
  refine (setSlot_refuses (by simp) x _).andThen fun _ s3 h3 => ?_
  obtain ⟨-, rfl⟩ := setSlot_ok h3
  exact setFlags_faultsMeet _ ((flagsOk_congr (afterSlotWrite_f ..)).2 hf1)

theorem accumulate_fault {op : AluOp} {src : AluSrc} {s : State} {e : Fault} (hf : flagsOk s)
    (h : accumulate op src s = .fault e) : RefusedAccess s e := by
  refine ((getSrc_refuses s src s).andThen fun v s1 h1 => ?_) e (done_eq_fault.1 h)
  obtain ⟨-, -, rfl⟩ := getSrc_ok h1
  exact setFlags_faultsMeet _ ((flagsOk_congr (by simp)).2 hf)

theorem testBit7_fault {x : Slot} {s : State} {e : Fault} (hf : flagsOk s) (h : testBit7 x s = .fault e) :
    RefusedAccess s e := by
  have hf1 : flagsOk (afterSlotRead x s) := (flagsOk_congr (afterSlotRead_f x s)).2 hf
  refine ((getSlot_refuses s x s).andThen fun v s1 h1 => ?_) e (done_eq_fault.1 h)
  obtain ⟨-, -, rfl⟩ := getSlot_ok h1
  refine (getFlags_faultsMeet hf1).andThen fun fl s2 h2 => ?_
  obtain ⟨-, -, rfl⟩ := getFlags_inv h2
  exact setFlags_faultsMeet _ hf1

theorem rotateA_fault {s : State} {e : Fault} (hf : flagsOk s) (h : rotateA s = .fault e) : RefusedAccess s e := by
  refine ((getFlags_faultsMeet hf).andThen fun fl s1 h1 => ?_) e (done_eq_fault.1 h)
  obtain ⟨-, -, rfl⟩ := getFlags_inv h1
  exact setFlags_faultsMeet _ hf

theorem jumpCond_fault {cc : Cond} {b : Byte} {s : State} {e : Fault} (hf : flagsOk s)
    (h : jumpCond cc b s = .fault e) : RefusedAccess s e :=
  ((getFlags_faultsMeet hf).andThen fun _ _ _ => faultsMeet_ok _ _) e (done_eq_fault.1 h)

theorem pushPair_fault {q : Pair} {s : State} {e : Fault} (h : pushPair q s = .fault e) : RefusedAccess s e :=
  push16_refuses _ s e (done_eq_fault.1 h)

theorem popPair_fault {q : Pair} {s : State} {e : Fault} (h : popPair q s = .fault e) : RefusedAccess s e :=
  ((pop16_refuses s).andThen fun _ _ _ => faultsMeet_ok _ _) e (done_eq_fault.1 h)

theorem callAbs_fault {t : Word} {s : State} {e : Fault} (h : callAbs t s = .fault e) : RefusedAccess s e :=
  ((push16_refuses _ s).andThen fun _ _ _ => faultsMeet_ok _ _) e (done_eq_fault.1 h)

theorem returnPop_fault {s : State} {e : Fault} (h : returnPop s = .fault e) : RefusedAccess s e :=
  ((pop16_refuses s).andThen fun _ _ _ => faultsMeet_ok _ _) e (done_eq_fault.1 h)

theorem storeA_fault {a : Word} {s : State} {e : Fault} (h : storeA a s = .fault e) : RefusedAccess s e :=
  memWrite_refuses id a _ e (done_eq_fault.1 h)

theorem loadA_fault {a : Word} {s : State} {e : Fault} (h : loadA a s = .fault e) : RefusedAccess s e :=
  ((memRead_refuses s a s).andThen fun _ _ _ => faultsMeet_ok _ _) e (done_eq_fault.1 h)

/-- With a valid F a form faults only in an access the router refuses. -/
theorem formMeaning_fault {fm : Form} {s : State} {e : Fault} (hf : flagsOk s) (h : formMeaning fm s = .fault e) :
    RefusedAccess s e := by
  cases fm with
  | ldPair p v => cases p <;> cases h
  | incPair p => cases p <;> cases h
  | decPair p => cases p <;> cases h
  | ldImm x v => exact setSlot_refuses id x v e (done_eq_fault.1 h)
  | ld x y => exact move_fault h
  | inc x => exact modifySlot_fault hf h
  | dec x => exact modifySlot_fault hf h
  | rl x => exact modifySlot_fault hf h
  | alu op src => exact accumulate_fault hf h
  | push q => exact pushPair_fault h
  | pop q => exact popPair_fault h
  | jr b => cases h
  | jrCond cc b => exact jumpCond_fault hf h
  | call t => exact callAbs_fault h
  | ret => exact returnPop_fault h
  | storeHigh o => exact storeA_fault h
  | storeHighC => exact storeA_fault h
  | storeAbs t => exact storeA_fault h
  | loadHigh o => exact loadA_fault h
  | loadHighC => exact loadA_fault h
  | loadAbs t => exact loadA_fault h
  | rla => exact rotateA_fault hf h
  | bit7 x => exact testBit7_fault hf h

/-- With a valid F an instruction faults only in an access the router refuses (60_exceptions R240). -/
theorem exec_fault {i : Instr} {s : State} {e : Fault} (hf : flagsOk s) (h : exec i s = .fault e) :
    RefusedAccess s e :=
  formMeaning_fault hf (exec_eq_formMeaning i s ▸ h)

/-! ### Runs -/

/-- The fault is not a failed check of F. -/
def NotFlagViolation (e : Fault) : Prop := conditionOf e ≠ .invariantViolation

theorem RefusedAccess.notFlagViolation {s : State} {e : Fault} (h : RefusedAccess s e) : NotFlagViolation e := by
  obtain ⟨a, k, fin, rfl, -⟩ := h
  exact nofun

theorem fetch8_notFlagViolation (s : State) : FaultsMeet NotFlagViolation (fetch8 s) :=
  ((memRead_refuses s s.pc s).mono fun _ => RefusedAccess.notFlagViolation).andThen fun _ _ _ => faultsMeet_ok _ _

theorem fetch16_notFlagViolation (s : State) : FaultsMeet NotFlagViolation (fetch16 s) :=
  (fetch8_notFlagViolation s).andThen fun _ s1 _ =>
    (fetch8_notFlagViolation s1).andThen fun _ _ _ => faultsMeet_ok _ _

theorem raise_unimplemented_notFlagViolation {α : Type} (t : OpTable) (b : Byte) (a : Word) (s : State) :
    FaultsMeet NotFlagViolation (raise (.unimplementedOpcode t b a) s : Res α) := by
  intro e h
  cases h
  exact nofun

/-- A fetch checks no flag. -/
theorem fetchInstr_notFlagViolation (s : State) : FaultsMeet NotFlagViolation (fetchInstr s) := by
  refine (fetch8_notFlagViolation s).andThen fun op s1 _ => ?_
  split
  · next i _ => exact faultsMeet_ok i s1
  · next mk _ => exact (fetch8_notFlagViolation s1).andThen fun v s2 _ => faultsMeet_ok (mk v) s2
  · next mk _ => exact (fetch16_notFlagViolation s1).andThen fun v s2 _ => faultsMeet_ok (mk v) s2
  · refine (fetch8_notFlagViolation s1).andThen fun op2 s2 _ => ?_
    split
    · next i _ => exact faultsMeet_ok i s2
    · exact raise_unimplemented_notFlagViolation _ _ _ _
  · exact raise_unimplemented_notFlagViolation _ _ _ _

/-- From a state of the invariant no step finds F's low nibble nonzero. -/
theorem step_notFlagViolation {s : State} {r : Fault} (hs : Inv s) (h : step s = .fault r) : NotFlagViolation r := by
  obtain hfetch | ⟨i, s1, hi, he⟩ := step_fault hs.running h
  · exact fetchInstr_notFlagViolation s r hfetch
  · have hs1 : Inv s1 := inv_of_sameButFetch (sameButFetch_of_fetchInstr hi) hs
    exact (exec_fault hs1.flagsLowZero he).notFlagViolation

/-- Settles O55: the invariant holds at the session's start and every step keeps it. -/
theorem noRunViolatesTheFlagInvariant : Obligations.NoRunViolatesTheFlagInvariant := by
  intro boot cart n r hlen h
  obtain ⟨u, hu, hfault⟩ := run_fault_of_step (M := Sys2Proof.core) (P := Inv) stepKeepsInv
    (invAtEverySessionStart boot cart hlen) h
  exact step_notFlagViolation hu hfault

end Sys2Proof.Machine
end

section
/-! PROOF. Noninterference of the bytes no step reads back (20_memory R59, R60, R63): two states that differ only there are
taken to such states again, or to the same fault, by the router, by every shared operation and so by a step. -/

namespace Sys2Proof.Safety

open Sys2Proof.Machine

/-! ### The relation -/

/-- Related states are one state with two memories. -/
theorem SameButHidden.exists_mem {s t : State} (h : SameButHidden s t) : ∃ m, t = { s with mem := m } :=
  ⟨t.mem, congrArg (fun u : State => { u with mem := t.mem }) h.regs.symm⟩

/-- An update that commutes with replacing memory keeps the relation. -/
theorem SameButHidden.update {s t : State} (h : SameButHidden s t) (f : State → State)
    (hf : ∀ (u : State) (m : Memory), f { u with mem := m } = { f u with mem := m }) : SameButHidden (f s) (f t) := by
  have hmem (u : State) : (f u).mem = u.mem :=
    calc (f u).mem = { f u with mem := u.mem }.mem := congrArg State.mem (hf u u.mem)
      _ = u.mem := rfl
  constructor
  case regs => rw [← hf, ← hf, h.regs]
  case bytes => simpa only [hmem] using h.bytes

theorem SameButHidden.setPC {s t : State} (h : SameButHidden s t) (v : Word) : SameButHidden (s.setPC v) (t.setPC v) :=
  h.update (·.setPC v) fun _ _ => rfl

theorem SameButHidden.setSP {s t : State} (h : SameButHidden s t) (v : Word) : SameButHidden (s.setSP v) (t.setSP v) :=
  h.update (·.setSP v) fun _ _ => rfl

theorem SameButHidden.setReg {s t : State} (h : SameButHidden s t) (r : Reg8) (v : Byte) :
    SameButHidden (s.setReg r v) (t.setReg r v) :=
  h.update (·.setReg r v) fun _ _ => by cases r <;> rfl

theorem SameButHidden.setPair {s t : State} (h : SameButHidden s t) (p : Pair) (v : Word) :
    SameButHidden (s.setPair p v) (t.setPair p v) :=
  h.update (·.setPair p v) fun _ _ => by cases p <;> rfl

theorem SameButHidden.storeResult {s t : State} (h : SameButHidden s t) (op : AluOp) (v : Byte) :
    SameButHidden (storeResult op v s) (storeResult op v t) :=
  h.update (Machine.storeResult op v) fun _ _ => by cases op <;> rfl

theorem SameButHidden.pc {s t : State} (h : SameButHidden s t) : t.pc = s.pc := (congrArg State.pc h.regs).symm

theorem SameButHidden.sp {s t : State} (h : SameButHidden s t) : t.sp = s.sp := (congrArg State.sp h.regs).symm

theorem SameButHidden.fault {s t : State} (h : SameButHidden s t) : t.fault = s.fault :=
  (congrArg State.fault h.regs).symm

theorem SameButHidden.getReg {s t : State} (h : SameButHidden s t) (r : Reg8) : t.getReg r = s.getReg r := by
  obtain ⟨m, rfl⟩ := h.exists_mem
  rfl

theorem SameButHidden.getPair {s t : State} (h : SameButHidden s t) (p : Pair) : t.getPair p = s.getPair p := by
  obtain ⟨m, rfl⟩ := h.exists_mem
  rfl

/-- Related states answer every readable address alike: what stands behind a stub or the scanline register is not what a
read of it yields (20_memory R60, R63). -/
theorem SameButHidden.readValue {s t : State} (h : SameButHidden s t) {a : Word} (ha : readable a = true) :
    readValue t a = readValue s a := by
  have hbyte : stubAddr a = false → a.toNat ≠ 0xFF44 → s.mem.read a.toNat = t.mem.read a.toNat := fun hs hly =>
    h.bytes a (by simpa [neverReadBack, hs, hly, readable] using ha)
  obtain ⟨m, rfl⟩ := h.exists_mem
  unfold Safety.readValue
  split
  · next ho => exact (if_pos ho).symm
  · next ho =>
    refine Eq.trans ?_ (if_neg ho).symm
    split
    · rfl
    · next hs =>
      split
      · rfl
      · next hly => exact (hbyte (eq_false_of_ne_true hs) hly).symm

theorem SameButHidden.afterRead {s t : State} (h : SameButHidden s t) (a : Word) :
    SameButHidden (afterRead s a) (afterRead t a) :=
  h.update (Safety.afterRead · a) fun _ _ => rfl

theorem SameButHidden.writable {s t : State} (h : SameButHidden s t) (a : Word) : writable t a = writable s a := by
  obtain ⟨m, rfl⟩ := h.exists_mem
  rfl

/-- One byte written in both memories leaves them different at most where they were. -/
theorem SameButHidden.afterWrite {s t : State} (h : SameButHidden s t) (a : Word) (v : Byte) :
    SameButHidden (afterWrite s a v) (afterWrite t a v) := by
  constructor
  case regs => exact congrArg (fun u : State => { Safety.afterWrite u a v with mem := [] }) h.regs
  case bytes =>
    intro b hb
    rw [afterWrite_read, afterWrite_read, h.bytes b hb]

end Sys2Proof.Safety

namespace Sys2Proof.Machine

open Sys2Proof.Safety

/-! ### Answers -/

/-- Two operations answer one value in related states, or faults with one condition. -/
inductive AlikeRes {α : Type} : Res α → Res α → Prop
  | ok (v : α) {s t : State} (h : SameButHidden s t) : AlikeRes (.ok v s) (.ok v t)
  | fault {e e' : Fault} (h : conditionOf e' = conditionOf e) : AlikeRes (.fault e) (.fault e')

/-- Two steps answer related next states, or faults with one condition. -/
inductive AlikeStep : StepResult → StepResult → Prop
  | next {s t : State} (h : SameButHidden s t) : AlikeStep (.next s) (.next t)
  | fault {e e' : Fault} (h : conditionOf e' = conditionOf e) : AlikeStep (.fault e) (.fault e')

theorem AlikeRes.andThen {α β : Type} {r r' : Res α} {k k' : α → State → Res β} (hr : AlikeRes r r')
    (hk : ∀ v s t, SameButHidden s t → AlikeRes (k v s) (k' v t)) : AlikeRes (r.andThen k) (r'.andThen k') := by
  cases hr with
  | ok v h => exact hk v _ _ h
  | fault h => exact .fault h

theorem AlikeRes.done {α : Type} {r r' : Res α} (hr : AlikeRes r r') : AlikeStep r.done r'.done := by
  cases hr with
  | ok v h => exact .next h
  | fault h => exact .fault h

@[simp] theorem conditionOf_faultOf (c : FatalCondition) (s : State) : conditionOf (faultOf c s) = c := by
  cases c <;> rfl

theorem alikeRes_raise {α : Type} (c : FatalCondition) (s t : State) : AlikeRes (raise c s : Res α) (raise c t) :=
  .fault (by rw [conditionOf_faultOf, conditionOf_faultOf])

section Operations

variable {s t : State} (h : SameButHidden s t)
include h

/-! ### Shared operations -/

theorem memRead_alike (a : Word) : AlikeRes (memRead a s) (memRead a t) := by
  rw [memRead_eq, memRead_eq]
  split
  · next ha =>
    rw [h.readValue ha]
    exact .ok _ (h.afterRead a)
  · exact alikeRes_raise _ s t

theorem memWrite_alike (a : Word) (v : Byte) : AlikeRes (memWrite a v s) (memWrite a v t) := by
  rw [memWrite_eq, memWrite_eq, h.writable]
  split
  · exact .ok _ (h.afterWrite a v)
  · exact alikeRes_raise _ s t

theorem getSlot_alike (x : Slot) : AlikeRes (getSlot x s) (getSlot x t) := by
  have hreg (r : Reg8) : AlikeRes (.ok (s.getReg r) s) (.ok (t.getReg r) t) := by
    rw [h.getReg]
    exact .ok _ h
  cases x with
  | atHL =>
    have hhl : AlikeRes (memRead (s.getPair .hl) s) (memRead (t.getPair .hl) t) := by
      rw [h.getPair]
      exact memRead_alike h _
    exact hhl
  | _ => exact hreg _

theorem setSlot_alike (x : Slot) (v : Byte) : AlikeRes (setSlot x v s) (setSlot x v t) := by
  cases x with
  | atHL =>
    have hhl : AlikeRes (memWrite (s.getPair .hl) v s) (memWrite (t.getPair .hl) v t) := by
      rw [h.getPair]
      exact memWrite_alike h _ v
    exact hhl
  | _ => exact .ok _ (h.setReg _ v)

theorem getSrc_alike (src : AluSrc) : AlikeRes (getSrc src s) (getSrc src t) := by
  cases src with
  | slot x => exact getSlot_alike h x
  | imm v => exact .ok v h

theorem getFlags_alike : AlikeRes (getFlags s) (getFlags t) := by
  obtain ⟨m, rfl⟩ := h.exists_mem
  by_cases hf : flagsOk s
  · rw [getFlags_ok hf, getFlags_ok (s := { s with mem := m }) hf]
    exact .ok _ h
  · rw [getFlags_violation hf, getFlags_violation (s := { s with mem := m }) hf]
    exact alikeRes_raise _ _ _

theorem setFlags_alike (fl : Flags) : AlikeRes (setFlags fl s) (setFlags fl t) := by
  have hset := h.setReg .f fl.toByte
  obtain ⟨m, rfl⟩ := h.exists_mem
  by_cases hf : flagsOk s
  · rw [setFlags_ok fl hf, setFlags_ok (s := { s with mem := m }) fl hf]
    exact .ok _ hset
  · rw [setFlags_violation fl hf, setFlags_violation (s := { s with mem := m }) fl hf]
    exact alikeRes_raise _ _ _

theorem fetch8_alike : AlikeRes (fetch8 s) (fetch8 t) := by
  rw [fetch8, fetch8, h.pc]
  refine (memRead_alike h s.pc).andThen fun v s1 t1 h1 => ?_
  rw [h1.pc]
  exact .ok v (h1.setPC _)

theorem push16_alike (v : Word) : AlikeRes (push16 v s) (push16 v t) := by
  rw [push16, push16, h.sp]
  refine (memWrite_alike h s.sp _).andThen fun _ s1 t1 h1 => ?_
  rw [h1.sp]
  refine (memWrite_alike h1 _ _).andThen fun _ s2 t2 h2 => ?_
  rw [h2.sp]
  exact .ok _ (h2.setSP _)

theorem pop16_alike : AlikeRes (pop16 s) (pop16 t) := by
  rw [pop16, pop16, h.sp]
  refine (memRead_alike (h.setSP _) _).andThen fun lo s1 t1 h1 => ?_
  rw [h1.sp]
  exact (memRead_alike h1 _).andThen fun hi s2 t2 h2 => .ok _ h2

/-! ### Instructions -/

theorem modifySlot_alike (m : Byte → Flags → MicroResult) (x : Slot) :
    AlikeStep (modifySlot m x s) (modifySlot m x t) :=
  ((getSlot_alike h x).andThen fun v _ _ h1 => (getFlags_alike h1).andThen fun fl _ _ h2 =>
    (setSlot_alike h2 x (m v fl).val).andThen fun _ _ _ h3 => setFlags_alike h3 (m v fl).flags).done

theorem accumulate_alike (op : AluOp) (src : AluSrc) : AlikeStep (accumulate op src s) (accumulate op src t) := by
  refine ((getSrc_alike h src).andThen fun v s1 t1 h1 => ?_).done
  simp only [h1.getReg]
  exact setFlags_alike (h1.storeResult op _) _

theorem rotateA_alike : AlikeStep (rotateA s) (rotateA t) := by
  refine ((getFlags_alike h).andThen fun fl s1 t1 h1 => ?_).done
  simp only [h1.getReg]
  exact setFlags_alike (h1.setReg .a _) _

theorem testBit7_alike (x : Slot) : AlikeStep (testBit7 x s) (testBit7 x t) := by
  refine ((getSlot_alike h x).andThen fun v s1 t1 h1 => (getFlags_alike h1).andThen fun fl s2 t2 h2 => ?_).done
  rw [h2.getReg]
  exact setFlags_alike h2 _

theorem move_alike (x y : Slot) : AlikeStep (move x y s) (move x y t) :=
  ((getSlot_alike h y).andThen fun v _ _ h1 => setSlot_alike h1 x v).done

theorem pushPair_alike (q : Pair) : AlikeStep (pushPair q s) (pushPair q t) := by
  rw [pushPair, pushPair, h.getPair]
  exact (push16_alike h _).done

theorem popPair_alike (q : Pair) : AlikeStep (popPair q s) (popPair q t) :=
  ((pop16_alike h).andThen fun v _ _ h1 => .ok _ (h1.setPair q v)).done

theorem jumpCond_alike (cc : Cond) (e : Byte) : AlikeStep (jumpCond cc e s) (jumpCond cc e t) :=
  ((getFlags_alike h).andThen fun fl _ _ h1 =>
    .ok _ (h1.update (fun u => if condHolds cc fl then u.setPC (jumpTarget e u) else u)
      fun _ _ => by split <;> rfl)).done

theorem callAbs_alike (a : Word) : AlikeStep (callAbs a s) (callAbs a t) := by
  rw [callAbs, callAbs, h.pc]
  exact ((push16_alike h _).andThen fun _ _ _ h1 => .ok _ (h1.setPC a)).done

theorem returnPop_alike : AlikeStep (returnPop s) (returnPop t) :=
  ((pop16_alike h).andThen fun v _ _ h1 => .ok _ (h1.setPC v)).done

theorem storeA_alike (a : Word) : AlikeStep (storeA a s) (storeA a t) := by
  rw [storeA, storeA, h.getReg]
  exact (memWrite_alike h a _).done

theorem loadA_alike (a : Word) : AlikeStep (loadA a s) (loadA a t) :=
  ((memRead_alike h a).andThen fun v _ _ h1 => .ok _ (h1.setReg .a v)).done

/-- Every form takes related states alike. -/
theorem formMeaning_alike (fm : Form) : AlikeStep (formMeaning fm s) (formMeaning fm t) := by
  cases fm with
  | ldPair p v =>
    cases p with
    | sp => exact .next (h.setSP v)
    | _ => exact .next (h.setPair _ v)
  | incPair p =>
    cases p with
    | sp => exact .next h
    | _ => exact .next (h.update (fun u => u.setPair _ (u.getPair _ + 1)) fun _ _ => rfl)
  | decPair p =>
    cases p with
    | sp => exact .next h
    | _ => exact .next (h.update (fun u => u.setPair _ (u.getPair _ - 1)) fun _ _ => rfl)
  | ldImm x v => exact (setSlot_alike h x v).done
  | ld x y => exact move_alike h x y
  | inc x => exact modifySlot_alike h increment x
  | dec x => exact modifySlot_alike h decrement x
  | rl x => exact modifySlot_alike h rl8 x
  | alu op src => exact accumulate_alike h op src
  | push q => exact pushPair_alike h q
  | pop q => exact popPair_alike h q
  | jr e => exact .next (h.update (fun u => u.setPC (jumpTarget e u)) fun _ _ => rfl)
  | jrCond cc e => exact jumpCond_alike h cc e
  | call a => exact callAbs_alike h a
  | ret => exact returnPop_alike h
  | storeHigh o => exact storeA_alike h _
  | loadHigh o => exact loadA_alike h _
  | storeHighC =>
    rw [formMeaning, formMeaning, h.getReg]
    exact storeA_alike h _
  | loadHighC =>
    rw [formMeaning, formMeaning, h.getReg]
    exact loadA_alike h _
  | storeAbs a => exact storeA_alike h a
  | loadAbs a => exact loadA_alike h a
  | rla => exact rotateA_alike h
  | bit7 x => exact testBit7_alike h x

theorem exec_alike (i : Instr) : AlikeStep (exec i s) (exec i t) := by
  rw [exec_eq_formMeaning, exec_eq_formMeaning]
  exact formMeaning_alike h i.form

/-! ### The step -/

theorem fetch16_alike : AlikeRes (fetch16 s) (fetch16 t) :=
  (fetch8_alike h).andThen fun _ _ _ h1 => (fetch8_alike h1).andThen fun _ _ _ h2 => .ok _ h2

theorem fetchInstr_alike : AlikeRes (fetchInstr s) (fetchInstr t) := by
  rw [fetchInstr, fetchInstr, h.pc]
  refine (fetch8_alike h).andThen fun op s1 t1 h1 => ?_
  split
  · exact .ok _ h1
  · exact (fetch8_alike h1).andThen fun _ _ _ h2 => .ok _ h2
  · exact (fetch16_alike h1).andThen fun _ _ _ h2 => .ok _ h2
  · rw [h1.pc]
    refine (fetch8_alike h1).andThen fun op2 s2 t2 h2 => ?_
    split
    · exact .ok _ h2
    · exact alikeRes_raise _ _ _
  · exact alikeRes_raise _ _ _

/-- A step takes related states alike. -/
theorem step_alike : AlikeStep (step s) (step t) := by
  rw [step, step, h.fault]
  split
  · exact .fault (by rw [conditionOf_faultOf, conditionOf_faultOf])
  · have hfetch := fetchInstr_alike h
    generalize fetchInstr s = r, fetchInstr t = r' at hfetch ⊢
    cases hfetch with
    | ok i h1 => exact exec_alike h1 i
    | fault he => exact .fault he

end Operations

theorem AlikeStep.next_of_next {r r' : StepResult} (h : AlikeStep r r') {s : State} (hr : r = .next s) :
    ∃ t, r' = .next t ∧ SameButHidden s t := by
  cases h with
  | next h => cases hr; exact ⟨_, rfl, h⟩
  | fault h => cases hr

theorem AlikeStep.fault_of_fault {r r' : StepResult} (h : AlikeStep r r') {e : Fault} (hr : r = .fault e) :
    ∃ e', r' = .fault e' ∧ conditionOf e' = conditionOf e := by
  cases h with
  | next h => cases hr
  | fault h => cases hr; exact ⟨_, rfl, h⟩

/-- Settles O59: a step takes states that differ only in such bytes alike. -/
theorem hiddenBytesAreNeverReadBack : Obligations.HiddenBytesAreNeverReadBack :=
  fun _ _ h => ⟨fun _ => (step_alike h).next_of_next, fun _ => (step_alike h).fault_of_fault⟩

end Sys2Proof.Machine
end

section
/-! PROOF. The router at every address (20_memory R55, R60, R61): which addresses a read or a write passes through to the
byte array, and what the others answer. -/

namespace Sys2Proof.Machine

open Sys2Proof.Safety

/-! ### Addresses -/

theorem overlaid_of_ge {a : Word} (h : 0x100 ≤ a.toNat) (s : State) : overlaid s a = false := by
  rw [overlaid, decide_eq_false (Nat.not_lt.2 h), Bool.false_and]

theorem overlaid_of_off {s : State} (h : s.bootRomEnabled = false) (a : Word) : overlaid s a = false := by
  rw [overlaid, h, Bool.and_false]

/-- A stub is high, is neither the scanline register nor the latch, and is not in the band (20_memory R55). -/
theorem stubAddr_apart {a : Word} (h : stubAddr a = true) :
    0xFF10 ≤ a.toNat ∧ a.toNat ≠ 0xFF44 ∧ a.toNat ≠ 0xFF50 ∧ unmodeledAddr a = false := by
  have hband : unmodeledAddr a = false := unmodeledAddr_false (by simp [h])
  simp only [stubAddr, decide_eq_true_eq] at h
  exact ⟨by omega, by omega, by omega, hband⟩

theorem readable_iff {a : Word} : readable a = true ↔ unmodeledAddr a = false := by
  rw [readable, Bool.not_eq_true']

theorem writable_iff {s : State} {a : Word} :
    writable s a = true ↔ unmodeledAddr a = false ∧ a.toNat ≠ 0xFF44 ∧ overlaid s a = false := by
  simp only [writable, Bool.and_eq_true, Bool.not_eq_true', bne_iff_ne, and_assoc]

/-- A write of the band, of the scanline register or of the overlay is refused, and no other one is (20_memory R58). -/
theorem writable_eq_false_iff {s : State} {a : Word} :
    writable s a = false ↔ unmodeledAddr a = true ∨ a.toNat = 0xFF44 ∨ a.toNat < 0x100 ∧ s.bootRomEnabled = true := by
  have hoverlaid : overlaid s a = true ↔ a.toNat < 0x100 ∧ s.bootRomEnabled = true := by simp [overlaid]
  rw [← hoverlaid, ← Bool.not_eq_true, writable_iff, ← Bool.not_eq_true, ← Bool.not_eq_true]
  tauto

/-! ### Reads -/

/-- Where a read passes through it answers the array's byte and leaves the state. -/
theorem memRead_stored {a : Word} {s : State} (hband : unmodeledAddr a = false) (ho : overlaid s a = false)
    (hs : stubAddr a = false) (hly : a.toNat ≠ 0xFF44) : memRead a s = .ok (s.mem.read a.toNat) s := by
  rw [memRead_eq, if_pos (readable_iff.2 hband)]
  simp [readValue, afterRead, ho, hs, hly]

theorem fetch8_stored {s : State} (hband : unmodeledAddr s.pc = false) (ho : overlaid s s.pc = false)
    (hs : stubAddr s.pc = false) (hly : s.pc.toNat ≠ 0xFF44) :
    fetch8 s = .ok (s.mem.read s.pc.toNat) { s with pc := s.pc + 1 } := by
  rw [fetch8, memRead_stored hband ho hs hly]
  rfl

theorem memRead_scanline {a : Word} (s : State) (h : a.toNat = 0xFF44) : memRead a s = .ok 144 s := by
  rw [memRead_eq, if_pos (readable_iff.2 (unmodeledAddr_false (by omega)))]
  simp [readValue, afterRead, overlaid_of_ge (show 0x100 ≤ a.toNat by omega), stubAddr_false (a := a) (by omega), h]

/-- A stub answers a draw, which the state counts (20_memory R60, log entry 4). -/
theorem memRead_stub {a : Word} (s : State) (h : stubAddr a = true) :
    memRead a s = .ok (Config.stubRead s.draws) { s with draws := s.draws + 1 } := by
  obtain ⟨hhigh, -, -, hband⟩ := stubAddr_apart h
  rw [memRead_eq, if_pos (readable_iff.2 hband)]
  simp [readValue, afterRead, overlaid_of_ge (show 0x100 ≤ a.toNat by omega), h]

theorem memRead_illegal {a : Word} (s : State) (h : unmodeledAddr a = true) :
    (memRead a s).done = illegal a .read s := by
  rw [memRead_eq, if_neg (by simp [readable, h])]
  rfl

/-- Settles O14: a case per range of addresses. -/
theorem routerRead : Obligations.RouterRead := by
  intro s a
  have hstored (ho : overlaid s a = false)
      (ha : a.toNat < 0xFF00 ∨ 0xFF80 ≤ a.toNat ∨ a.toNat = 0xFF42 ∨ a.toNat = 0xFF43 ∨ a.toNat = 0xFF50) :
      memRead a s = .ok (s.mem.read a.toNat) s :=
    memRead_stored (unmodeledAddr_false (by omega)) ho (stubAddr_false (by omega)) (by omega)
  refine ⟨memRead_overlay, ?overlayOff, ?array, ?registers, memRead_scanline s, memRead_stub s, memRead_illegal s⟩
  case overlayOff => exact fun ha hs => hstored (overlaid_of_off hs a) (by omega)
  case array => exact fun ha => hstored (overlaid_of_ge (by omega) s) (by omega)
  case registers => exact fun ha => hstored (overlaid_of_ge (by omega) s) (by omega)

/-! ### Writes -/

/-- An accepted write that puts no nonzero byte in the latch changes the array only. -/
theorem memWrite_stored {a : Word} {v : Byte} {s : State} (hw : writable s a = true)
    (hl : ¬(a.toNat = 0xFF50 ∧ v ≠ 0)) : memWrite a v s = .ok () { s with mem := s.mem.write a.toNat v } := by
  rw [memWrite_eq, if_pos hw, afterWrite, if_neg hl]

/-- A nonzero byte in the latch turns the overlay off (20_memory R62). -/
theorem memWrite_latch {a : Word} {v : Byte} {s : State} (hw : writable s a = true) (ha : a.toNat = 0xFF50)
    (hv : v ≠ 0) : memWrite a v s = .ok () { s with mem := s.mem.write a.toNat v, bootRomEnabled := false } := by
  rw [memWrite_eq, if_pos hw, afterWrite, if_pos ⟨ha, hv⟩]

theorem memWrite_illegal {a : Word} {s : State} (v : Byte) (hw : writable s a = false) :
    (memWrite a v s).done = illegal a .write s := by
  rw [memWrite_eq, if_neg (by simp [hw])]
  rfl

/-- Settles O15: a case per range of addresses. -/
theorem routerWrite : Obligations.RouterWrite := by
  intro s a v
  have hlatch (ha : a.toNat = 0xFF50) : writable s a = true :=
    writable_iff.2 ⟨unmodeledAddr_false (by omega), by omega, overlaid_of_ge (by omega) s⟩
  refine ⟨?overlay, ?overlayOff, ?array, fun ha => memWrite_latch (hlatch ha) ha, ?latchZero, ?scanline, ?band⟩
  case overlay => exact fun ha hs => memWrite_illegal v (writable_eq_false_iff.2 (.inr (.inr ⟨ha, hs⟩)))
  case scanline => exact fun ha => memWrite_illegal v (writable_eq_false_iff.2 (.inr (.inl ha)))
  case band => exact fun ha => memWrite_illegal v (writable_eq_false_iff.2 (.inl ha))
  case latchZero => exact fun ha hv => memWrite_stored (hlatch ha) fun hl => hl.2 hv
  case overlayOff =>
    intro ha hs
    exact memWrite_stored (writable_iff.2 ⟨unmodeledAddr_false (by omega), by omega, overlaid_of_off hs a⟩) (by omega)
  case array =>
    intro ha
    have hplain : writable s a = true ∧ a.toNat ≠ 0xFF50 := by
      cases hstub : stubAddr a with
      | true =>
        obtain ⟨hhigh, hly, hne, hband⟩ := stubAddr_apart hstub
        exact ⟨writable_iff.2 ⟨hband, hly, overlaid_of_ge (by omega) s⟩, hne⟩
      | false =>
        simp only [hstub, Bool.false_eq_true, or_false] at ha
        exact ⟨writable_iff.2 ⟨unmodeledAddr_false (by omega), by omega, overlaid_of_ge (by omega) s⟩, by omega⟩
    obtain ⟨hw, hne⟩ := hplain
    exact memWrite_stored hw fun hl => hne hl.1

/-! ### Read after write -/

/-- No write puts the overlay in front of an address it is not in front of. -/
theorem overlaid_afterWrite {s : State} {b : Word} (a : Word) (v : Byte) (h : overlaid s b = false) :
    overlaid (afterWrite s a v) b = false := by
  simp only [overlaid, Bool.and_eq_false_iff] at h ⊢
  exact h.imp_right (afterWrite_overlay_off a v)

/-- Settles O16: an accepted write is of an address that is neither overlaid nor the scanline register nor in the band, so
unless it is a stub a read passes through to the byte. -/
theorem storedByteIsReadBack : Obligations.StoredByteIsReadBack := by
  intro s t a v h
  obtain ⟨hw, rfl⟩ := memWrite_ok h
  obtain ⟨hband, hly, ho⟩ := writable_iff.1 hw
  have ho' : overlaid (afterWrite s a v) a = false := overlaid_afterWrite a v ho
  have hv : (afterWrite s a v).mem.read a.toNat = v := read_write_same s.mem a.toNat v
  refine ⟨afterWrite_read s a v, fun hs => ⟨?read, ?fetch⟩⟩
  case read => rw [memRead_stored hband ho' hs hly, hv]
  case fetch =>
    rw [fetch8_stored (s := { afterWrite s a v with pc := a }) hband ho' hs hly]
    exact congrArg (Res.ok · _) hv

end Sys2Proof.Machine
end

section
/-! PROOF. Memory under an instruction and under a step: the bytes outside its stores, the bytes behind the overlay, and the
faults a step can end in (20_memory R51, R57, R58, R67). -/

namespace Sys2Proof.Machine

open Sys2Proof.Safety

/-- Settles O49: a completed instruction stores at its form's addresses and nowhere else. -/
theorem memoryFrame : Obligations.MemoryFrame :=
  fun _ _ _ h _ hx => (exec_stores h).read_kept hx

/-! ### Behind the overlay -/

/-- An instruction stores at no address, at one, or at two consecutive ones. -/
theorem storeAddrs_consecutive (fm : Form) (s : State) : ∃ a, storeAddrs fm s <+: [a, a + 1] := by
  have hslot (x : Slot) : ∃ a, slotStores x s <+: [a, a + 1] := ⟨s.getPair .hl, by cases x <;> simp [slotStores]⟩
  cases fm with
  | ldImm x v => exact hslot x
  | ld x y => exact hslot x
  | inc x => exact hslot x
  | dec x => exact hslot x
  | rl x => exact hslot x
  | push q => exact ⟨s.sp, List.prefix_refl _⟩
  | call t => exact ⟨s.sp, List.prefix_refl _⟩
  | storeHigh o => exact ⟨highAddr o, by simp [storeAddrs]⟩
  | storeHighC => exact ⟨highAddr (s.getReg .c), by simp [storeAddrs]⟩
  | storeAbs t => exact ⟨t, by simp [storeAddrs]⟩
  | _ => exact ⟨0, List.nil_prefix⟩

/-- An instruction that stores to the latch stores nowhere behind the overlay. -/
theorem ge_of_latch_mem_storeAddrs {fm : Form} {s : State} {l a : Word} (hl : l ∈ storeAddrs fm s)
    (hlatch : l.toNat = 0xFF50) (ha : a ∈ storeAddrs fm s) : 0x100 ≤ a.toNat := by
  obtain ⟨b, hb⟩ := storeAddrs_consecutive fm s
  have hl : l = b ∨ l = b + 1 := by simpa using hb.subset hl
  have ha : a = b ∨ a = b + 1 := by simpa using hb.subset ha
  bv_omega

/-- With the overlay on, accepted writes elsewhere than at the latch are not behind it. -/
theorem Stores.ge_of_overlay_on {as : List Word} {s t : State} (h : Stores as s t) (hs : s.bootRomEnabled = true)
    (hl : ∀ a ∈ as, a.toNat ≠ 0xFF50) : ∀ a ∈ as, 0x100 ≤ a.toNat := by
  induction h with
  | nil hm hb => exact nofun
  | @cons a as s t v hw h ih =>
    obtain ⟨hne, hl⟩ := List.forall_mem_cons.1 hl
    obtain ⟨-, -, ho⟩ := writable_iff.1 hw
    have ha : 0x100 ≤ a.toNat := by simpa [overlaid, hs] using ho
    have hs' : (afterWrite s a v).bootRomEnabled = true :=
      (afterWrite_overlay_kept fun hlatch => hne hlatch.1).trans hs
    exact List.forall_mem_cons.2 ⟨ha, ih hs' hl⟩

/-- An instruction run with the overlay on stores nowhere behind it, even one that turns it off. -/
theorem exec_ge_of_overlay_on {i : Instr} {s t : State} (h : exec i s = .next t) (hs : s.bootRomEnabled = true) :
    ∀ a ∈ storeAddrs i.form s, 0x100 ≤ a.toNat := by
  by_cases hl : ∃ l ∈ storeAddrs i.form s, l.toNat = 0xFF50
  · obtain ⟨l, hl, hlatch⟩ := hl
    exact fun a => ge_of_latch_mem_storeAddrs hl hlatch
  · exact (exec_stores h).ge_of_overlay_on hs fun a ha he => hl ⟨a, ha, he⟩

theorem SameButFetch.mem {s t : State} (h : SameButFetch s t) : t.mem = s.mem := by
  obtain ⟨pc, n, rfl⟩ := h
  rfl

/-- Settles O58: the fetch writes nothing, and the instruction stores at 0x100 or above. -/
theorem overlayProtectsTheBytesBehindIt : Obligations.OverlayProtectsTheBytesBehindIt := by
  intro s t x hs h hx
  obtain ⟨i, s1, hi, he⟩ := step_next h
  have hfetch := sameButFetch_of_fetchInstr hi
  have hge := exec_ge_of_overlay_on he (hfetch.bootRomEnabled.trans hs)
  have hne : ∀ a ∈ storeAddrs i.form s1, x ≠ a.toNat := fun a ha => (lt_of_lt_of_le hx (hge a ha)).ne
  rw [(exec_stores he).read_kept hne, hfetch.mem]

/-! ### The faults of a step -/

/-- The entry is the absence of an instruction. -/
def isUnlisted : Entry → Bool
  | .unlisted => true
  | _ => false

/-- A byte with no row in the primary map fits no pattern of 30_encoding R95. -/
theorem notAdmitted_of_primaryEntry {b : Byte} (h : primaryEntry b = .unlisted) : NotAdmitted .primary b := by
  have hall : ∀ b : Byte, isUnlisted (primaryEntry b) = true → primaryAdmitted b = false ∧ b ≠ 0xCB#8 := by decide
  exact hall b (by rw [h]; rfl)

/-- A byte with no row in the extended map fits no pattern of 30_encoding R95. -/
theorem notAdmitted_of_extendedEntry {b : Byte} (h : extendedEntry b = none) : NotAdmitted .extended b := by
  have hall : ∀ b : Byte, extendedEntry b = none → extendedAdmitted b = false := by decide
  exact hall b h

/-- The fault is of an opcode byte no table admits, or of an access the router refuses in the state `s`. -/
def ListedFault (s : State) (e : Fault) : Prop :=
  (∃ t b a fin, e = .unimplementedOpcode t b a fin ∧ NotAdmitted t b) ∨ RefusedAccess s e

theorem fetch8_listed (s t : State) : FaultsMeet (ListedFault s) (fetch8 t) :=
  ((memRead_refuses s t.pc t).mono fun _ => Or.inr).andThen fun _ _ _ => faultsMeet_ok _ _

theorem fetch16_listed (s t : State) : FaultsMeet (ListedFault s) (fetch16 t) :=
  (fetch8_listed s t).andThen fun _ t1 _ => (fetch8_listed s t1).andThen fun _ _ _ => faultsMeet_ok _ _

theorem raise_unimplemented_listed {α : Type} {t : OpTable} {b : Byte} (h : NotAdmitted t b) (s : State) (a : Word)
    (u : State) : FaultsMeet (ListedFault s) (raise (.unimplementedOpcode t b a) u : Res α) := by
  intro e he
  cases he
  exact .inl ⟨t, b, a, _, rfl, h⟩

/-- A fetch faults on a byte with no entry or in a read. -/
theorem fetchInstr_listed (s : State) : FaultsMeet (ListedFault s) (fetchInstr s) := by
  refine (fetch8_listed s s).andThen fun op s1 _ => ?_
  split
  · exact faultsMeet_ok _ _
  · exact (fetch8_listed s s1).andThen fun _ _ _ => faultsMeet_ok _ _
  · exact (fetch16_listed s s1).andThen fun _ _ _ => faultsMeet_ok _ _
  · refine (fetch8_listed s s1).andThen fun op2 s2 _ => ?_
    split
    · exact faultsMeet_ok _ _
    · next hnone => exact raise_unimplemented_listed (notAdmitted_of_extendedEntry hnone) _ _ _
  · next hunlisted => exact raise_unimplemented_listed (notAdmitted_of_primaryEntry hunlisted) _ _ _

/-- Which accesses are refused depends on the overlay enable only. -/
theorem RefusedAccess.of_overlay_eq {s t : State} {e : Fault} (h : RefusedAccess t e)
    (hb : t.bootRomEnabled = s.bootRomEnabled) : RefusedAccess s e := by
  simpa only [RefusedAccess, writable_eq_false_iff, hb] using h

/-- From a state of the invariant a step faults on a byte with no entry or in a refused access. -/
theorem step_fault_listed {s : State} {r : Fault} (hs : Inv s) (h : step s = .fault r) : ListedFault s r := by
  obtain hfetch | ⟨i, s1, hi, he⟩ := step_fault hs.running h
  · exact fetchInstr_listed s r hfetch
  · have hfetch := sameButFetch_of_fetchInstr hi
    have hs1 : Inv s1 := inv_of_sameButFetch hfetch hs
    exact .inr ((exec_fault hs1.flagsLowZero he).of_overlay_eq hfetch.bootRomEnabled)

/-- Settles O54: a refused access is one of the three illegal kinds. -/
theorem onlyTheListedFaults : Obligations.OnlyTheListedFaults := by
  intro s r hs h
  refine (step_fault_listed hs h).imp_right ?_
  rintro ⟨a, k, fin, rfl, hread | ⟨rfl, hwrite⟩⟩
  · exact ⟨a, k, fin, rfl, .inl (by simpa [readable] using hread)⟩
  · exact ⟨a, .write, fin, rfl, (writable_eq_false_iff.1 hwrite).imp_right fun h => ⟨rfl, h⟩⟩

end Sys2Proof.Machine
end

section
/-! PROOF. The decoder and the encoder (30_encoding R90 to R105): the bytes the opcode maps list each instruction with are
its encoding, and the decoder reads an instruction from those and from no others. -/

namespace Sys2Proof

open Sys2Proof.Machine Sys2Proof.Safety

/-! ### The rows of the primary map -/

/-- The sixteen rows of the primary map, and the one of 0xCB. -/
def primaryMap : List (List (Nat × Entry)) :=
  [primaryRows0x, primaryRows1x, primaryRows2x, primaryRows3x, primaryRows4x, primaryRows5x, primaryRows6x,
    primaryRows7x, primaryRows8x, primaryRows9x, primaryRowsAx, primaryRowsBx, primaryRowsCx, primaryRowsDx,
    primaryRowsEx, primaryRowsFx, [(0xCB, .extended)]]

theorem primaryRows_eq_flatten : primaryRows = primaryMap.flatten := by
  unfold primaryRows
  simp only [List.append_assoc]
  rfl

/-- A byte with a row has the row's entry. -/
theorem primaryEntry_of_row {b : Byte} {e : Entry} (h : primaryMap.flatten.lookup b.toNat = some e) :
    primaryEntry b = e := by
  rw [primaryEntry, primaryRows_eq_flatten, h, Option.getD_some]

theorem primaryEntry_CB : primaryEntry 0xCB#8 = .extended := primaryEntry_of_row rfl

/-- A byte is looked up in a row that holds it. -/
theorem mem_of_lookup_toNat {α : Type} {rows : List (Nat × α)} {b : Byte} {e : α} (h : rows.lookup b.toNat = some e) :
    (b.toNat, e) ∈ rows := by
  obtain ⟨l, r, rfl, -⟩ := List.lookup_eq_some_iff.1 h
  simp

/-- What holds of every row holds of every byte with its entry, a byte with no row being unlisted. -/
theorem primaryEntry_of_forall {P : Byte → Entry → Prop}
    (hrow : ∀ rows ∈ primaryMap, ∀ row ∈ rows, P (BitVec.ofNat 8 row.1) row.2) (hno : ∀ b, P b .unlisted) (b : Byte) :
    P b (primaryEntry b) := by
  rw [primaryEntry, primaryRows_eq_flatten]
  cases h : primaryMap.flatten.lookup b.toNat with
  | none => exact hno b
  | some e =>
    obtain ⟨rows, hrows, hmem⟩ := List.mem_flatten.1 (mem_of_lookup_toNat h)
    simpa using hrow rows hrows _ hmem

/-! ### What the maps list -/

/-- The opcode maps list the instruction with these bytes (the layouts of 30_encoding R94, a 16-bit immediate low byte
first). -/
inductive Listed : Instr → List Byte → Prop
  | op {b : Byte} {i : Instr} (h : primaryEntry b = .op i) : Listed i [b]
  | imm8 {b : Byte} {mk : Byte → Instr} (h : primaryEntry b = .imm8 mk) (v : Byte) : Listed (mk v) [b, v]
  | imm16 {b : Byte} {mk : Word → Instr} (h : primaryEntry b = .imm16 mk) (v : Word) :
      Listed (mk v) [b, loByte v, hiByte v]
  | extended {b b2 : Byte} {i : Instr} (h : primaryEntry b = .extended) (h2 : extendedEntry b2 = some i) :
      Listed i [b, b2]

/-- The maps list every instruction with its encoding, by the layouts of 30_encoding R94. -/
theorem listed_encode (i : Instr) : Listed i (encode i) := by
  cases i
  case ld_BC_d16 v | ld_DE_d16 v | ld_HL_d16 v | ld_SP_d16 v | call_a16 v | ld_atA16_A v | ld_A_atA16 v =>
    exact .imm16 (primaryEntry_of_row rfl) v
  case ld_B_d8 v | ld_C_d8 v | ld_D_d8 v | ld_E_d8 v | ld_H_d8 v | ld_L_d8 v | ld_A_d8 v | jr_e8 v | jr_NZ_e8 v |
      jr_Z_e8 v | jr_NC_e8 v | jr_C_e8 v | add_A_d8 v | sub_d8 v | cp_d8 v | ldh_atA8_A v | ldh_A_atA8 v =>
    exact .imm8 (primaryEntry_of_row rfl) v
  case rl_B | rl_C | rl_D | rl_E | rl_H | rl_L | rl_atHL | rl_A | bit7_B | bit7_C | bit7_D | bit7_E | bit7_H | bit7_L |
      bit7_atHL | bit7_A =>
    exact .extended primaryEntry_CB rfl
  all_goals exact .op (primaryEntry_of_row rfl)

/-- The entry of the byte `b` is of instructions that are encoded with it. -/
def EntryEncodes (b : Byte) : Entry → Prop
  | .op i => encode i = [b]
  | .imm8 mk => ∀ v, encode (mk v) = [b, v]
  | .imm16 mk => ∀ v, encode (mk v) = [b, loByte v, hiByte v]
  | .extended => b = 0xCB#8
  | .unlisted => True

theorem primaryMap_encodes : ∀ rows ∈ primaryMap, ∀ row ∈ rows, EntryEncodes (BitVec.ofNat 8 row.1) row.2 := by
  rw [← List.forall_mem_flatten, ← List.forall_iff_forall_mem]
  and_intros
  all_goals dsimp only [EntryEncodes]; intros; rfl

theorem entryEncodes_primaryEntry {b : Byte} {e : Entry} (h : primaryEntry b = e) : EntryEncodes b e :=
  h ▸ primaryEntry_of_forall primaryMap_encodes (fun _ => trivial) b

theorem encode_of_extendedEntry {b : Byte} {i : Instr} (h : extendedEntry b = some i) : encode i = [0xCB#8, b] := by
  have hrow : ∀ row ∈ extendedRows, encode row.2 = [0xCB#8, BitVec.ofNat 8 row.1] := by decide
  simpa using hrow _ (mem_of_lookup_toNat h)

/-- The maps list an instruction with no bytes but its encoding. -/
theorem Listed.eq_encode {i : Instr} {code : List Byte} (h : Listed i code) : code = encode i := by
  cases h with
  | op h => exact (entryEncodes_primaryEntry h).symm
  | imm8 h v => exact (entryEncodes_primaryEntry h v).symm
  | imm16 h v => exact (entryEncodes_primaryEntry h v).symm
  | extended h h2 => rw [encode_of_extendedEntry h2, show _ = 0xCB#8 from entryEncodes_primaryEntry h]

/-! ### What the decoder answers -/

/-- The decoder reads a listed instruction back from its bytes, whatever follows them. -/
theorem decode_of_listed {i : Instr} {code : List Byte} (h : Listed i code) (rest : List Byte) :
    decode (code ++ rest) = .ok i rest := by
  cases h with
  | op h => simp [decode, h]
  | imm8 h v => simp [decode, h]
  | imm16 h v => simp [decode, h]
  | extended h h2 => simp [decode, h, h2]

/-- The decoder answers an instruction only from bytes the maps list it with. -/
theorem listed_of_decode {bs rest : List Byte} {i : Instr} (h : decode bs = .ok i rest) :
    ∃ code, Listed i code ∧ bs = code ++ rest := by
  unfold decode at h
  split at h
  · cases h
  · split at h
    · next he => cases h; exact ⟨_, .op he, rfl⟩
    · next he => cases h; exact ⟨_, .imm8 he _, rfl⟩
    · cases h
    · next he => cases h; exact ⟨_, .imm16 he _, by simp⟩
    · cases h
    · cases h
    · next he =>
      split at h
      · next h2 => cases h; exact ⟨_, .extended he h2, rfl⟩
      · cases h
    · cases h

/-- Settles O2: the maps list every instruction with its encoding. -/
theorem decodeOfEncodeIsTheInstruction : Obligations.DecodeOfEncodeIsTheInstruction :=
  fun i bs => decode_of_listed (listed_encode i) bs

/-- Settles O3: the maps list an instruction with no other bytes. -/
theorem encodeOfDecodeIsTheBytes : Obligations.EncodeOfDecodeIsTheBytes := by
  intro bs rest i h
  obtain ⟨code, hcode, rfl⟩ := listed_of_decode h
  rw [hcode.eq_encode]

theorem decode_of_encode_eq {i : Instr} {code : List Byte} (h : encode i = code) : decode code = .ok i [] := by
  simpa [h] using decodeOfEncodeIsTheInstruction i []

/-- Settles O1: each word is its instruction's encoding. -/
theorem wordsDecodeAsEncoded : Obligations.WordsDecodeAsEncoded := by
  unfold Obligations.WordsDecodeAsEncoded
  and_intros <;> exact decode_of_encode_eq rfl

/-! ### Bytes without an entry -/

/-- The primary map has no entry exactly for the bytes no pattern of 30_encoding R95 admits. -/
theorem primaryEntry_eq_unlisted_iff {b : Byte} : primaryEntry b = .unlisted ↔ NotAdmitted .primary b := by
  have hrow : ∀ rows ∈ primaryMap, ∀ row ∈ rows, ¬NotAdmitted .primary (BitVec.ofNat 8 row.1) := by
    unfold NotAdmitted
    decide
  exact ⟨notAdmitted_of_primaryEntry,
    primaryEntry_of_forall (P := fun b e => NotAdmitted .primary b → e = .unlisted)
      (fun rows hrows row hmem h => absurd h (hrow rows hrows row hmem)) (fun _ _ => rfl) b⟩

/-- The extended map has no entry exactly for the bytes no pattern of 30_encoding R95 admits. -/
theorem extendedEntry_eq_none_iff {b : Byte} : extendedEntry b = none ↔ NotAdmitted .extended b := by
  refine ⟨notAdmitted_of_extendedEntry, fun h => ?_⟩
  have hrow : ∀ row ∈ extendedRows, ¬NotAdmitted .extended (BitVec.ofNat 8 row.1) := by
    unfold NotAdmitted
    decide
  cases he : extendedEntry b with
  | none => rfl
  | some i => exact absurd h (by simpa using hrow _ (mem_of_lookup_toNat he))

theorem decode_of_unlisted {b : Byte} (h : primaryEntry b = .unlisted) (rest : List Byte) :
    decode (b :: rest) = .unlisted .primary b := by
  simp [decode, h]

/-- The decoder refuses a first byte only for want of an entry in the primary map. -/
theorem decode_eq_unlisted_primary_iff {b : Byte} {rest : List Byte} :
    decode (b :: rest) = .unlisted .primary b ↔ primaryEntry b = .unlisted := by
  refine ⟨fun h => ?_, fun h => decode_of_unlisted h rest⟩
  cases he : primaryEntry b with
  | unlisted => rfl
  | op i => simp [decode, he] at h
  | imm8 mk => cases rest <;> simp [decode, he] at h
  | imm16 mk => obtain _ | ⟨lo, _ | ⟨hi, rest⟩⟩ := rest <;> simp [decode, he] at h
  | extended =>
    obtain _ | ⟨b2, rest⟩ := rest
    · simp [decode, he] at h
    · cases h2 : extendedEntry b2 <;> simp [decode, he, h2] at h

theorem decode_eq_unlisted_extended_iff {b : Byte} {rest : List Byte} :
    decode (0xCB#8 :: b :: rest) = .unlisted .extended b ↔ extendedEntry b = none := by
  cases h : extendedEntry b <;> simp [decode, primaryEntry_CB, h]

/-- Settles O6: the bytes of both maps are those of the patterns. -/
theorem decoderRefusesExactlyTheUnlistedBytes : Obligations.DecoderRefusesExactlyTheUnlistedBytes := by
  refine ⟨fun b rest => ?primary, fun b rest => ?extended, ?count101, ?count240⟩
  case primary => rw [decode_eq_unlisted_primary_iff, primaryEntry_eq_unlisted_iff]
  case extended => rw [decode_eq_unlisted_extended_iff, extendedEntry_eq_none_iff]
  case count101 => rfl
  case count240 =>
    have hadm : ((List.range 256).filter fun n => extendedAdmitted (BitVec.ofNat 8 n)).length = 16 := rfl
    have hall := List.length_eq_length_filter_add (l := List.range 256) fun n => extendedAdmitted (BitVec.ofNat 8 n)
    rw [List.length_range, hadm] at hall
    omega

/-! ### The patterns -/

/-- Settles O4, by form. -/
theorem encodingFollowsThePatterns : Obligations.EncodingFollowsThePatterns := by
  intro i
  have hw := wellFormed_form i
  unfold encode
  generalize i.form = fm at hw ⊢
  cases fm with
  | ldPair p v => cases p <;> exact congrArg₂ (fun lo hi => [_, lo, hi]) (loByte_eq_lowOf v) (hiByte_eq_highOf v)
  | call t | storeAbs t | loadAbs t =>
    exact congrArg₂ (fun lo hi => [_, lo, hi]) (loByte_eq_lowOf t) (hiByte_eq_highOf t)
  | ldImm x _ | inc x | dec x | rl x | bit7 x => cases x <;> rfl
  | ld x r => cases x <;> cases r <;> rfl
  | incPair p | decPair p => cases p <;> rfl
  | push q | pop q => cases q <;> rfl
  | jrCond cc e => cases cc <;> rfl
  | alu op src =>
    cases src with
    | slot r => cases op <;> cases r <;> rfl
    | imm v =>
      cases op
      case xor => cases hw
      all_goals rfl
  | _ => rfl

/-! ### The forms -/

/-- The maps list every admitted form: an instruction of the form, with the form's bytes. -/
theorem exists_listed_of_wellFormed {fm : Form} (hw : fm.wellFormed = true) :
    ∃ i : Instr, Listed i fm.encode ∧ i.form = fm := by
  cases fm with
  | ldPair p v => cases p <;> exact ⟨_, .imm16 (primaryEntry_of_row rfl) v, rfl⟩
  | call t | storeAbs t | loadAbs t => exact ⟨_, .imm16 (primaryEntry_of_row rfl) t, rfl⟩
  | ldImm x v =>
    cases x
    case atHL => cases hw
    all_goals exact ⟨_, .imm8 (primaryEntry_of_row rfl) v, rfl⟩
  | jr e | storeHigh e | loadHigh e => exact ⟨_, .imm8 (primaryEntry_of_row rfl) e, rfl⟩
  | jrCond cc e => cases cc <;> exact ⟨_, .imm8 (primaryEntry_of_row rfl) e, rfl⟩
  | ld x r => cases x <;> cases r <;> exact ⟨_, .op (primaryEntry_of_row rfl), rfl⟩
  | inc x | dec x => cases x <;> exact ⟨_, .op (primaryEntry_of_row rfl), rfl⟩
  | incPair p | decPair p =>
    cases p
    case sp => cases hw
    all_goals exact ⟨_, .op (primaryEntry_of_row rfl), rfl⟩
  | push q | pop q => cases q <;> exact ⟨_, .op (primaryEntry_of_row rfl), rfl⟩
  | alu op src =>
    cases src with
    | slot r => cases op <;> cases r <;> exact ⟨_, .op (primaryEntry_of_row rfl), rfl⟩
    | imm v =>
      cases op
      case xor => cases hw
      all_goals exact ⟨_, .imm8 (primaryEntry_of_row rfl) v, rfl⟩
  | rl x | bit7 x => cases x <;> exact ⟨_, .extended primaryEntry_CB rfl, rfl⟩
  | ret | storeHighC | loadHighC | rla => exact ⟨_, .op (primaryEntry_of_row rfl), rfl⟩

/-- The forms 30_encoding R95 leaves out. -/
theorem eq_of_not_wellFormed {fm : Form} (hw : fm.wellFormed = false) :
    (∃ v, fm = .ldImm .atHL v) ∨ fm = .incPair .sp ∨ fm = .decPair .sp ∨ ∃ v, fm = .alu .xor (.imm v) := by
  cases fm with
  | ldImm x v => cases x <;> simp_all [Form.wellFormed]
  | incPair p | decPair p => cases p <;> simp_all [Form.wellFormed]
  | alu op src => cases op <;> cases src <;> simp_all [Form.wellFormed]
  | _ => cases hw

/-- Settles O5: a form left out starts with a byte that is not admitted. -/
theorem admittedFormsAreTheInstructions : Obligations.AdmittedFormsAreTheInstructions := by
  refine ⟨fun fm hw => ?admitted, fun fm rest hw => ?left⟩
  case admitted =>
    obtain ⟨i, hlisted, hform⟩ := exists_listed_of_wellFormed hw
    exact ⟨i, hform, hlisted.eq_encode.symm⟩
  case left =>
    obtain ⟨v, rfl⟩ | rfl | rfl | ⟨v, rfl⟩ := eq_of_not_wellFormed hw
    · exact ⟨0x36, [v], rfl, decode_of_unlisted (by rfl) _⟩
    · exact ⟨0x33, [], rfl, decode_of_unlisted (by rfl) _⟩
    · exact ⟨0x3B, [], rfl, decode_of_unlisted (by rfl) _⟩
    · exact ⟨0xEE, [v], rfl, decode_of_unlisted (by rfl) _⟩

end Sys2Proof
end

section
/-! PROOF. The step (30_encoding R91, R102, 60_exceptions R242, R243): fetching the bytes at PC, the instruction they are,
and the faults of a fetch. -/

namespace Sys2Proof.Machine

open Sys2Proof.Safety

/-! ### Fetched bytes -/

/-- The state after `n` bytes at PC were fetched, none of them a draw. -/
def State.skip (s : State) (n : Nat) : State := { s with pc := s.pc + BitVec.ofNat 16 n }

theorem skip_zero (s : State) : s.skip 0 = s := by
  simp [State.skip]

theorem skip_skip (s : State) (m n : Nat) : (s.skip m).skip n = s.skip (m + n) := by
  simp only [State.skip, BitVec.add_assoc, BitVec.ofNat_add]

@[simp] theorem skip_pc (s : State) (n : Nat) : (s.skip n).pc = s.pc + BitVec.ofNat 16 n := rfl

/-- The first of the bytes that stand at PC is fetched, and the others stand there then. -/
theorem fetch8_of_codeAt {s : State} {b : Byte} {bs : List Byte} (h : CodeAt s s.pc (b :: bs)) :
    fetch8 s = .ok b (s.skip 1) ∧ CodeAt (s.skip 1) (s.skip 1).pc bs := by
  constructor
  · obtain ⟨hread, hstub, hb⟩ := h 0 (by simp)
    rw [BitVec.add_zero] at hread hstub hb
    rw [fetch8_code hread hstub, ← Option.some.inj hb]
    rfl
  · intro k hk
    have hpc : (s.skip 1).pc + BitVec.ofNat 16 k = s.pc + BitVec.ofNat 16 (k + 1) := by
      rw [← skip_pc, ← skip_pc, skip_skip, Nat.add_comm]
    rw [hpc]
    exact h (k + 1) (by simpa using hk)

theorem fetch8_of_band {s : State} (h : readable s.pc = false) :
    fetch8 s = raise (.illegalMemoryAccess s.pc .read) s := by
  rw [fetch8_eq, h]
  rfl

theorem fetch16_of_codeAt {s : State} {lo hi : Byte} (h : CodeAt s s.pc [lo, hi]) :
    fetch16 s = .ok (mkWord hi lo) (s.skip 2) := by
  obtain ⟨hlo, h⟩ := fetch8_of_codeAt h
  obtain ⟨hhi, -⟩ := fetch8_of_codeAt h
  rw [fetch16, hlo, ok_andThen, hhi, ok_andThen, skip_skip]

/-- A fetch of a word faults at the byte that lies in the band. -/
theorem fetch16_of_band {s : State} {lo hi : Byte} {k : Nat} (hk : k < 2) (h : CodeAt s s.pc ([lo, hi].take k))
    (hband : readable (s.skip k).pc = false) :
    fetch16 s = raise (.illegalMemoryAccess (s.skip k).pc .read) (s.skip k) := by
  cases k with
  | zero =>
    rw [skip_zero] at hband ⊢
    rw [fetch16, fetch8_of_band hband, raise_andThen]
  | succ k =>
    obtain rfl : k = 0 := by omega
    obtain ⟨hlo, -⟩ := fetch8_of_codeAt h
    rw [fetch16, hlo, ok_andThen, fetch8_of_band hband, raise_andThen]

/-! ### Fetched instructions -/

section Opcode

variable {s s1 : State} {b : Byte} (hb : fetch8 s = .ok b s1)
include hb

theorem fetchInstr_of_op {i : Instr} (he : primaryEntry b = .op i) : fetchInstr s = .ok i s1 := by
  simp [fetchInstr, hb, he]

theorem fetchInstr_of_imm8 {mk : Byte → Instr} (he : primaryEntry b = .imm8 mk) :
    fetchInstr s = (fetch8 s1).andThen fun v s2 => .ok (mk v) s2 := by
  simp [fetchInstr, hb, he]

theorem fetchInstr_of_imm16 {mk : Word → Instr} (he : primaryEntry b = .imm16 mk) :
    fetchInstr s = (fetch16 s1).andThen fun v s2 => .ok (mk v) s2 := by
  simp [fetchInstr, hb, he]

theorem fetchInstr_of_unlisted (he : primaryEntry b = .unlisted) :
    fetchInstr s = raise (.unimplementedOpcode .primary b s.pc) s1 := by
  simp [fetchInstr, hb, he]

theorem fetchInstr_of_extended_fault {r : Fault} (he : primaryEntry b = .extended) (h2 : fetch8 s1 = .fault r) :
    fetchInstr s = .fault r := by
  simp [fetchInstr, hb, he, h2]

variable {b2 : Byte} {s2 : State} (hb2 : fetch8 s1 = .ok b2 s2)
include hb2

theorem fetchInstr_of_extended {i : Instr} (he : primaryEntry b = .extended) (he2 : extendedEntry b2 = some i) :
    fetchInstr s = .ok i s2 := by
  simp [fetchInstr, hb, he, hb2, he2]

theorem fetchInstr_of_extended_unlisted (he : primaryEntry b = .extended) (he2 : extendedEntry b2 = none) :
    fetchInstr s = raise (.unimplementedOpcode .extended b2 s1.pc) s2 := by
  simp [fetchInstr, hb, he, hb2, he2]

end Opcode

/-- An instruction whose listed bytes stand at PC is fetched. -/
theorem fetchInstr_of_codeAt {s : State} {i : Instr} {code : List Byte} (hi : Listed i code)
    (h : CodeAt s s.pc code) : fetchInstr s = .ok i (s.skip code.length) := by
  cases hi with
  | op he =>
    obtain ⟨hb, -⟩ := fetch8_of_codeAt h
    exact fetchInstr_of_op hb he
  | imm8 he v =>
    obtain ⟨hb, h⟩ := fetch8_of_codeAt h
    obtain ⟨hv, -⟩ := fetch8_of_codeAt h
    rw [fetchInstr_of_imm8 hb he, hv, ok_andThen, skip_skip]
    rfl
  | imm16 he v =>
    obtain ⟨hb, h⟩ := fetch8_of_codeAt h
    rw [fetchInstr_of_imm16 hb he, fetch16_of_codeAt h, ok_andThen, skip_skip, mkWord_hi_lo]
    rfl
  | extended he he2 =>
    obtain ⟨hb, h⟩ := fetch8_of_codeAt h
    obtain ⟨hb2, -⟩ := fetch8_of_codeAt h
    rw [fetchInstr_of_extended hb hb2 he he2, skip_skip]
    rfl

/-- An instruction one of whose bytes lies in the band is not fetched past the bytes before it. -/
theorem fetchInstr_of_band {s : State} {i : Instr} {code : List Byte} {k : Nat} (hi : Listed i code)
    (hk : k < code.length) (h : CodeAt s s.pc (code.take k)) (hband : readable (s.skip k).pc = false) :
    fetchInstr s = raise (.illegalMemoryAccess (s.skip k).pc .read) (s.skip k) := by
  cases k with
  | zero =>
    rw [skip_zero] at hband ⊢
    rw [fetchInstr, fetch8_of_band hband, raise_andThen]
  | succ k =>
    rw [Nat.add_comm, ← skip_skip] at hband ⊢
    cases hi with
    | op he => simp at hk
    | imm8 he v =>
      obtain rfl : k = 0 := by simpa using hk
      obtain ⟨hb, -⟩ := fetch8_of_codeAt h
      rw [skip_zero] at hband ⊢
      rw [fetchInstr_of_imm8 hb he, fetch8_of_band hband, raise_andThen]
    | imm16 he v =>
      obtain ⟨hb, h⟩ := fetch8_of_codeAt h
      rw [fetchInstr_of_imm16 hb he, fetch16_of_band (Nat.lt_of_succ_lt_succ hk) h hband, raise_andThen]
    | extended he he2 =>
      obtain rfl : k = 0 := by simpa using hk
      obtain ⟨hb, -⟩ := fetch8_of_codeAt h
      rw [skip_zero] at hband ⊢
      exact fetchInstr_of_extended_fault hb he (fetch8_of_band hband)

/-! ### The step -/

/-- Settles O7: the step of a running state. -/
theorem stepRunsTheDecodedInstruction : Obligations.StepRunsTheDecodedInstruction := by
  intro s s1 i hs hi
  simp only [step, hs, hi]

theorem step_of_fetch_fault {s : State} {r : Fault} (hs : s.fault = none) (h : fetchInstr s = .fault r) :
    step s = .fault r := by
  simp only [step, hs, h]

/-- Settles O8: the bytes of an instruction are those the maps list it with. -/
theorem stepRunsTheCodeAtPC : Obligations.StepRunsTheCodeAtPC :=
  fun _ i hs h => stepRunsTheDecodedInstruction _ _ _ hs (fetchInstr_of_codeAt (listed_encode i) h)

/-- Settles O9, by the layout of the instruction. -/
theorem fetchFromTheBandIsFatal : Obligations.FetchFromTheBandIsFatal :=
  fun _ i _ hs hk h hband => step_of_fetch_fault hs (fetchInstr_of_band (listed_encode i) hk h hband)

/-- Settles O10: the bytes not admitted are those without an entry. -/
theorem unlistedOpcodeIsFatal : Obligations.UnlistedOpcodeIsFatal := by
  constructor
  · rintro s b hs hread rfl hno
    have hb : fetch8 s = .ok _ _ := (fetch8_eq s).trans (if_pos hread)
    exact step_of_fetch_fault hs (fetchInstr_of_unlisted hb (primaryEntry_eq_unlisted_iff.2 hno))
  · rintro s b hs hcode hread rfl hno
    obtain ⟨hcb, -⟩ := fetch8_of_codeAt hcode
    have hb : fetch8 (s.skip 1) = .ok _ _ := (fetch8_eq _).trans (if_pos hread)
    have hpc : s.pc + 1 + 1 = s.pc + 2 := BitVec.add_assoc ..
    rw [← hpc]
    exact step_of_fetch_fault hs
      (fetchInstr_of_extended_unlisted hcb hb primaryEntry_CB (extendedEntry_eq_none_iff.2 hno))

/-! ### No refusal -/

theorem formMeaning_ne_refused (fm : Form) (s : State) (x : Refusal) : formMeaning fm s ≠ .refused x := by
  cases fm with
  | ldPair p v => cases p <;> exact nofun
  | incPair p | decPair p => cases p <;> exact nofun
  | jr e => exact nofun
  | _ => exact done_ne_refused _ x

/-- Settles O12, by form. -/
theorem noStepIsRefused : Obligations.NoStepIsRefused := by
  intro s x
  unfold step
  split
  · exact nofun
  · split
    · next i s1 _ => rw [exec_eq_formMeaning]; exact formMeaning_ne_refused i.form s1 x
    · exact nofun

end Sys2Proof.Machine
end

section
/-! PROOF. The converse of `exec_next`: an instruction of each form that meets its form's conditions answers the form's
state; and the two refused accesses of a form that reads its operand before the flags. -/

namespace Sys2Proof.Machine

open Sys2Proof.Safety

/-! ### Shared meanings that complete -/

theorem loadImm_of_writable {x : Slot} {v : Byte} {s : State} (hw : slotWritable x s = true) :
    loadImm x v s = .next (afterSlotWrite x v s) := by
  rw [loadImm, setSlot_eq, if_pos hw]
  rfl

theorem move_of_accessible {x y : Slot} {s : State} (hr : slotReadable y s = true) (hw : slotWritable x s = true) :
    move x y s = .next (afterSlotWrite x (slotValue y s) (afterSlotRead y s)) := by
  rw [move, getSlot_eq, if_pos hr, ok_andThen, setSlot_eq, slotWritable_afterSlotRead, if_pos hw]
  rfl

theorem modifySlot_of_accessible (m : Byte → Flags → MicroResult) {x : Slot} {s : State} (hf : flagsOk s)
    (hr : slotReadable x s = true) (hw : slotWritable x s = true) : modifySlot m x s = .next (afterModify m x s) := by
  have hf1 : flagsOk (afterSlotRead x s) := (flagsOk_congr (afterSlotRead_f x s)).2 hf
  have hf2 (v : Byte) : flagsOk (afterSlotWrite x v (afterSlotRead x s)) := (flagsOk_congr (afterSlotWrite_f ..)).2 hf1
  rw [modifySlot, getSlot_eq, if_pos hr, ok_andThen, getFlags_ok hf1, ok_andThen, setSlot_eq,
    slotWritable_afterSlotRead, if_pos hw, ok_andThen, setFlags_ok _ (hf2 _), afterSlotRead_f]
  rfl

theorem accumulate_of_readable (op : AluOp) {src : AluSrc} {s : State} (hf : flagsOk s)
    (hr : srcReadable src s = true) : accumulate op src s = .next (afterForm (.alu op src) s) := by
  have ha : (afterSrcRead src s).getReg .a = s.a := afterSrcRead_a src s
  rw [accumulate, getSrc_eq, if_pos hr, ok_andThen, setFlags_ok _ ((flagsOk_congr (by simp)).2 hf), ha]
  rfl

theorem push16_of_writable {v : Word} {s : State} (h : pushWritable (loByte v) s = true) :
    push16 v s = .ok () (afterPush (hiByte v) (loByte v) s) := by
  obtain ⟨hlo, hhi⟩ := Bool.and_eq_true_iff.1 h
  rw [push16_eq, if_pos hlo, if_pos hhi]
  rfl

theorem pop16_of_readable {s : State} (h2 : readable (s.sp + 2) = true) (h3 : readable (s.sp + 3) = true) :
    pop16 s = .ok (mkWord (popHigh s) (popLow s)) (afterPop s) := by
  rw [pop16_eq, if_pos h2, if_pos h3]
  rfl

theorem storeA_of_writable {a : Word} {s : State} (h : writable s a = true) :
    storeA a s = .next (afterWrite s a s.a) := by
  rw [storeA, memWrite_eq, if_pos h]
  rfl

theorem loadA_of_readable {a : Word} {s : State} (h : readable a = true) :
    loadA a s = .next ((afterRead s a).setReg .a (readValue s a)) := by
  rw [loadA, memRead_eq, if_pos h]
  rfl

theorem rotateA_of_flagsOk {s : State} (hf : flagsOk s) : rotateA s = .next (afterForm .rla s) := by
  have hf1 (v : Byte) : flagsOk (s.setReg .a v) := hf
  rw [rotateA, getFlags_ok hf]
  exact congrArg Res.done (setFlags_ok _ (hf1 _))

theorem testBit7_of_readable {x : Slot} {s : State} (hf : flagsOk s) (hr : slotReadable x s = true) :
    testBit7 x s = .next (afterForm (.bit7 x) s) := by
  have hf1 : flagsOk (afterSlotRead x s) := (flagsOk_congr (afterSlotRead_f x s)).2 hf
  have hh : (afterSlotRead x s).getReg .h = s.h := by cases x <;> rfl
  rw [testBit7, getSlot_eq, if_pos hr, ok_andThen, getFlags_ok hf1, ok_andThen, setFlags_ok _ hf1, hh, afterSlotRead_f]
  rfl

/-! ### Forms -/

theorem formMeaning_of_completes {fm : Form} {s : State} (h : completes fm s) :
    formMeaning fm s = .next (afterForm fm s) := by
  cases fm with
  | ldPair p v => cases p <;> rfl
  | incPair p | decPair p => cases p <;> rfl
  | ldImm x v => exact loadImm_of_writable h
  | ld x y =>
    obtain ⟨hr, hw⟩ := h
    exact move_of_accessible hr hw
  | inc x | dec x | rl x =>
    obtain ⟨hf, hr, hw⟩ := h
    exact modifySlot_of_accessible _ hf hr hw
  | alu op src =>
    obtain ⟨hf, hr⟩ := h
    exact accumulate_of_readable op hf hr
  | push q =>
    have hhi : hiByte (s.getPair q) = pairHi q s := by cases q <;> exact hiByte_mkWord ..
    have hlo : loByte (s.getPair q) = pairLo q s := by cases q <;> exact loByte_mkWord ..
    rw [formMeaning, pushPair, push16_of_writable (hlo ▸ h), hhi, hlo]
    rfl
  | pop q =>
    obtain ⟨h2, h3⟩ := h
    rw [formMeaning, popPair, pop16_of_readable h2 h3]
    rfl
  | jr e => rfl
  | jrCond cc e =>
    rw [formMeaning, jumpCond, getFlags_ok h]
    rfl
  | call t =>
    rw [formMeaning, callAbs, push16_of_writable h]
    rfl
  | ret =>
    obtain ⟨h2, h3⟩ := h
    rw [formMeaning, returnPop, pop16_of_readable h2 h3]
    rfl
  | storeHigh o | storeHighC | storeAbs t => exact storeA_of_writable h
  | loadHigh o | loadHighC | loadAbs t => exact loadA_of_readable h
  | rla => exact rotateA_of_flagsOk h
  | bit7 x =>
    obtain ⟨hf, hr⟩ := h
    exact testBit7_of_readable hf hr

theorem encode_of_form {i : Instr} {fm : Form} (h : i.form = fm) : encode i = fm.encode := congrArg Form.encode h

/-- An instruction that meets its form's conditions answers its form's state. -/
theorem exec_of_completes {i : Instr} {fm : Form} {s : State} (hfm : i.form = fm) (h : completes fm s) :
    exec i s = .next (afterForm fm s) := by
  rw [exec_eq_formMeaning, hfm, formMeaning_of_completes h]

/-! ### Refused accesses -/

theorem getSlot_andThen_of_unreadable {α : Type} {x : Slot} {s : State} (hr : slotReadable x s = false)
    (k : Byte → State → Res α) : ((getSlot x s).andThen k).done = illegal (hlAddr s) .read s := by
  rw [getSlot_eq, if_neg (by simp [hr])]
  rfl

/-- A form that reads an operand before the flags faults where the read is refused, whatever F is (60_exceptions
R243). -/
theorem exec_of_unreadable {i : Instr} {fm : Form} {src : AluSrc} {s : State} (hfm : i.form = fm)
    (hsrc : flagOperand fm = some src) (hr : srcReadable src s = false) : exec i s = illegal (hlAddr s) .read s := by
  rw [exec_eq_formMeaning, hfm]
  cases fm with
  | inc x | dec x | rl x | bit7 x => cases hsrc; exact getSlot_andThen_of_unreadable hr _
  | alu op src' =>
    cases hsrc
    cases src with
    | slot x => exact getSlot_andThen_of_unreadable hr _
    | imm v => cases hr
  | jrCond cc e => cases hsrc; cases hr
  | rla => cases hsrc; cases hr
  | _ => cases hsrc

/-- A read-modify-write whose write is refused leaves the state after its read (log entry 16). -/
theorem modifySlot_of_unwritable (m : Byte → Flags → MicroResult) {x : Slot} {s : State} (hf : flagsOk s)
    (hr : slotReadable x s = true) (hw : slotWritable x s = false) :
    modifySlot m x s = illegal (hlAddr s) .write (afterSlotRead x s) := by
  have hf1 : flagsOk (afterSlotRead x s) := (flagsOk_congr (afterSlotRead_f x s)).2 hf
  rw [modifySlot, getSlot_eq, if_pos hr, ok_andThen, getFlags_ok hf1, ok_andThen, setSlot_eq,
    slotWritable_afterSlotRead, if_neg (by simp [hw]), hlAddr_afterSlotRead]
  rfl

end Sys2Proof.Machine
end

section
/-! PROOF. The micro-ops of 40_microops in plain arithmetic, and the instructions that run them: the accumulator
operations, the rotates, the bit test, and an increment undone by a decrement (R121 to R129). -/

namespace Sys2Proof.Machine

open Sys2Proof.Safety

/-! ### Bytes -/

theorem sub_beq_zero (x y : Byte) : (x - y == 0) = (x == y) := by
  rw [Bool.eq_iff_iff, beq_iff_eq, beq_iff_eq]
  exact sub_eq_zero

theorem xor_beq_zero (x y : Byte) : (x ^^^ y == 0) = (x == y) := by
  rw [Bool.eq_iff_iff, beq_iff_eq, beq_iff_eq]
  exact BitVec.xor_eq_zero_iff

theorem ofNat_beq_zero (n : Nat) : (BitVec.ofNat 8 n == 0) = (n % 256 == 0) := by
  rw [Bool.eq_iff_iff, beq_iff_eq, beq_iff_eq, ← BitVec.toNat_inj, BitVec.toNat_ofNat]
  rfl

/-- Bit 7 of a byte is set from 128 on. -/
theorem getLsbD_seven (v : Byte) : v.getLsbD 7 = decide (128 ≤ v.toNat) := by
  have := v.isLt
  rw [getLsbD_eq_div, Bool.eq_iff_iff, beq_iff_eq, decide_eq_true_iff]
  omega

/-- A byte shifted left with the carry below it is doubled, plus the carry (40_microops R126). -/
theorem rotl_eq (v : Byte) (c : Bool) : rotl v c = BitVec.ofNat 8 (2 * v.toNat + if c then 1 else 0) := by
  have hdisjoint : v <<< 1 &&& flagBit c 0 = 0#8 := by
    cases c <;> simp [flagBit, BitVec.and_one_eq_setWidth_ofBool_getLsbD]
  have hbit : (flagBit c 0).toNat = if c then 1 else 0 := by cases c <;> rfl
  apply BitVec.eq_of_toNat_eq
  rw [rotl, ← BitVec.add_eq_or_of_and_eq_zero _ _ hdisjoint, BitVec.toNat_add, BitVec.toNat_shiftLeft,
    Nat.shiftLeft_eq, hbit, Nat.mod_add_mod, BitVec.toNat_ofNat, Nat.mul_comm]

/-! ### Micro-ops -/

/-- The half-carry of a decrement: the low nibble was 0. -/
theorem decrement_eq (v : Byte) (fl : Flags) :
    decrement v fl = ⟨v - 1, { z := v == 1, n := true, h := v.toNat % 16 == 0, c := fl.c }⟩ := by
  have hh : (v &&& 0x0F#8 == 0) = (v.toNat % 16 == 0) := by
    rw [Bool.eq_iff_iff, beq_iff_eq, beq_iff_eq, ← BitVec.toNat_inj, and_low_toNat]
    rfl
  rw [decrement, sub_beq_zero, hh]

/-- A decrement of an incremented byte (40_microops R129). -/
theorem decrement_increment_eq (v : Byte) (fl : Flags) :
    decrement (increment v fl).val (increment v fl).flags =
      ⟨v, { z := v == 0, n := true, h := (v + 1).toNat % 16 == 0, c := fl.c }⟩ := by
  have hz : (v + 1 == 1) = (v == 0) := by
    rw [Bool.eq_iff_iff, beq_iff_eq, beq_iff_eq]
    exact add_eq_right
  rw [decrement_eq, increment, hz, BitVec.add_sub_cancel]

theorem add8_eq (x y : Byte) :
    add8 x y = ⟨BitVec.ofNat 8 (x.toNat + y.toNat),
      { z := (x.toNat + y.toNat) % 256 == 0, n := false, h := decide (x.toNat % 16 + y.toNat % 16 > 15),
        c := decide (x.toNat + y.toNat > 255) }⟩ := by
  rw [add8, ofNat_beq_zero]

theorem subtract8_eq (x y : Byte) :
    subtract8 x y = ⟨BitVec.ofInt 8 (x.toNat - y.toNat),
      { z := x == y, n := true, h := decide (y.toNat % 16 > x.toNat % 16), c := decide (y.toNat > x.toNat) }⟩ := by
  have hsub : x - y = BitVec.ofInt 8 (x.toNat - y.toNat) := by
    have := x.isLt
    have := y.isLt
    apply BitVec.eq_of_toNat_eq
    rw [BitVec.toNat_sub, BitVec.toNat_ofInt]
    omega
  rw [subtract8, sub_beq_zero, hsub]

theorem xor8_eq (x y : Byte) : xor8 x y = ⟨x ^^^ y, { z := x == y, n := false, h := false, c := false }⟩ := by
  rw [xor8, xor_beq_zero]

theorem rl8_eq (v : Byte) (fl : Flags) :
    rl8 v fl = ⟨BitVec.ofNat 8 (2 * v.toNat + if fl.c then 1 else 0),
      { z := BitVec.ofNat 8 (2 * v.toNat + if fl.c then 1 else 0) == 0, n := false, h := false,
        c := decide (128 ≤ v.toNat) }⟩ := by
  rw [rl8, rotl_eq, getLsbD_seven]

theorem rla8_eq (v : Byte) (fl : Flags) :
    rla8 v fl = ⟨BitVec.ofNat 8 (2 * v.toNat + if fl.c then 1 else 0),
      { z := false, n := false, h := false, c := decide (128 ≤ v.toNat) }⟩ := by
  rw [rla8, rotl_eq, getLsbD_seven]

/-- The bit test reads register H and not its operand (90_conflicts C3). -/
theorem bittest_eq (v h : Byte) (fl : Flags) :
    bittest v h fl = { z := decide (h.toNat < 128), n := false, h := true, c := fl.c } := by
  rw [bittest, getLsbD_seven, ← decide_not, decide_eq_decide.2 Nat.not_le]

/-! ### Accumulator operations -/

/-- What an accumulator operation answers with a valid F, and where its operand cannot be read. -/
theorem exec_alu {i : Instr} {op : AluOp} {src : AluSrc} {s : State} {m : MicroResult} (h : i.form = .alu op src)
    (hm : aluMicro op s.a (srcValue src s) = m) :
    (flagsOk s → srcReadable src s = true → exec i s = .next
      { storeResult op m.val (afterSrcRead src s) with f := flagByte m.flags.z m.flags.n m.flags.h m.flags.c }) ∧
    (srcReadable src s = false → exec i s = illegal (hlAddr s) .read s) := by
  refine ⟨fun hf hr => ?_, exec_of_unreadable h rfl⟩
  rw [exec_of_completes h ⟨hf, hr⟩, afterForm, hm, toByte_eq]
  rfl

/-- Settles O29: the exact sum decides the carries. -/
theorem addToA : Obligations.AddToA :=
  fun _ _ _ h => exec_alu h (add8_eq _ _)

/-- Settles O30, from the subtraction's flags. -/
theorem subtractFromA : Obligations.SubtractFromA := by
  intro i s src h
  refine ⟨fun r hr => ?_, fun v hv => ?_, exec_alu h (subtract8_eq _ _)⟩
  · rw [encode_of_form h, hr]; cases r <;> rfl
  · rw [encode_of_form h, hv]; rfl

/-- Settles O31: a compare is a subtraction whose difference is not stored. -/
theorem compareWithA : Obligations.CompareWithA := by
  intro i s src h
  refine ⟨fun r hr => ?_, fun v hv => ?_, exec_alu h (subtract8_eq _ _)⟩
  · rw [encode_of_form h, hr]; cases r <;> rfl
  · rw [encode_of_form h, hv]; rfl

/-- Settles O32: bytes differ exactly when their exclusive-or is not 0. -/
theorem exclusiveOrWithA : Obligations.ExclusiveOrWithA := by
  intro i s src h
  have hz : flagByte (s.a == srcValue src s) false false false = if s.a = srcValue src s then 0x80 else 0x00 := by
    by_cases ha : s.a = srcValue src s <;> simp [ha, flagByte]
  rw [← hz]
  exact exec_alu h (xor8_eq _ _)

/-! ### Rotates and the bit test -/

/-- Settles O43, from the rotation in arithmetic. -/
theorem rotateAccumulatorLeft : Obligations.RotateAccumulatorLeft := by
  intro i s h hf
  rw [exec_of_completes h hf, afterForm, rla8_eq, toByte_eq, flagsOfByte_c]
  rfl

/-- Settles O44, from the rotation in arithmetic and the two refused accesses. -/
theorem rotateSlotLeft : Obligations.RotateSlotLeft := by
  rintro i s x r h rfl
  refine ⟨?encoding, fun hf hr hw => ?completes, exec_of_unreadable h rfl, fun hf hr hw => ?unwritable⟩
  case encoding => rw [encode_of_form h]; cases x <;> rfl
  case completes =>
    rw [exec_of_completes h ⟨hf, hr, hw⟩, afterForm, afterModify, rl8_eq, toByte_eq, flagsOfByte_c]
    rfl
  case unwritable =>
    rw [exec_eq_formMeaning, h]
    exact modifySlot_of_unwritable rl8 hf hr hw

/-- Settles O45: the operand's value is read and not used. -/
theorem bitTestInspectsH : Obligations.BitTestInspectsH := by
  intro i s x h
  refine ⟨?encoding, fun hf hr => ?completes, exec_of_unreadable h rfl⟩
  case encoding => rw [encode_of_form h]; cases x <;> rfl
  case completes =>
    rw [exec_of_completes h ⟨hf, hr⟩, afterForm, bittest_eq, toByte_eq, flagsOfByte_c]
    rfl

/-! ### An increment undone -/

/-- A register slot can be read and written in every state. -/
theorem slotAccessible_of_ne_atHL {x : Slot} (hx : x ≠ .atHL) (s : State) :
    slotReadable x s = true ∧ slotWritable x s = true := by
  cases x with
  | atHL => exact absurd rfl hx
  | _ => exact ⟨rfl, rfl⟩

@[simp] theorem flagsOfByte_toByte (fl : Flags) : flagsOfByte fl.toByte = fl := by
  rw [toByte_eq, flagsOfByte_flagByte]

theorem afterSlotWrite_slotValue {x : Slot} (hx : x ≠ .atHL) (s : State) : afterSlotWrite x (slotValue x s) s = s := by
  cases x with
  | atHL => exact absurd rfl hx
  | _ => rfl

/-- Two read-modify-writes of a register are one, of the second micro-op on the first one's result and flags. -/
theorem afterModify_afterModify {x : Slot} (hx : x ≠ .atHL) (m m' : Byte → Flags → MicroResult) {s : State}
    {r r' : MicroResult} (hr : m (slotValue x s) (flagsOfByte s.f) = r) (hr' : m' r.val r.flags = r') :
    afterModify m' x (afterModify m x s) = (afterSlotWrite x r'.val s).setReg .f r'.flags.toByte := by
  subst hr hr'
  have hf : flagsOfByte (afterModify m x s).f = (m (slotValue x s) (flagsOfByte s.f)).flags := flagsOfByte_toByte _
  rw [afterModify, hf]
  cases x with
  | atHL => exact absurd rfl hx
  | _ => rfl

/-- Settles O28: the two micro-ops on one register are one, that leaves the value. -/
theorem incrementThenDecrement : Obligations.IncrementThenDecrement := by
  intro i j s x hi hj hx hf
  have hinc : completes (.inc x) s := ⟨hf, slotAccessible_of_ne_atHL hx s⟩
  have hdec : completes (.dec x) (afterModify increment x s) :=
    ⟨flagsOk_of_toByte rfl, slotAccessible_of_ne_atHL hx _⟩
  refine ⟨afterModify increment x s, exec_of_completes hi hinc, ?_⟩
  rw [exec_of_completes hj hdec, afterForm, afterModify_afterModify hx _ _ rfl (decrement_increment_eq _ _),
    afterSlotWrite_slotValue hx, toByte_eq, flagsOfByte_c]
  rfl

end Sys2Proof.Machine
end

section
/-! PROOF. The immediate loads and the move block (41_loads R140 to R146): the bytes, the state a load leaves, and the two
refused accesses of a move. -/

namespace Sys2Proof.Machine

open Sys2Proof.Safety

/-! ### Immediate loads -/

/-- A 16-bit immediate load's bytes, the immediate low byte first, and the state it leaves. -/
theorem encode_exec_ldPair {i : Instr} {p : PairSP} {v : Word} {s t : State} (h : i.form = .ldPair p v)
    (ht : afterForm (.ldPair p v) s = t) :
    encode i = [0b00000001#8 + p.code * 16, lowOf v, highOf v] ∧ exec i s = .next t := by
  constructor
  · rw [encode_of_form h, ← loByte_eq_lowOf, ← hiByte_eq_highOf]; cases p <;> rfl
  · rw [exec_of_completes h trivial, ht]

/-- Settles O22: a pair's write splits the immediate over its registers. -/
theorem loadPairImmediate : Obligations.LoadPairImmediate :=
  fun _ s v =>
    ⟨fun h => encode_exec_ldPair h (setPair_eq_withPair s .bc v),
      fun h => encode_exec_ldPair h (setPair_eq_withPair s .de v),
      fun h => encode_exec_ldPair h (setPair_eq_withPair s .hl v),
      fun h => encode_exec_ldPair h rfl⟩

/-- An 8-bit immediate load names a register (30_encoding R95 leaves 0x36 out). -/
theorem ne_atHL_of_form_ldImm {i : Instr} {x : Slot} {v : Byte} (h : i.form = .ldImm x v) : x ≠ .atHL := by
  rintro rfl
  have hw := wellFormed_form i
  rw [h] at hw
  cases hw

/-- Settles O23: a register is written in every state. -/
theorem loadByteImmediate : Obligations.LoadByteImmediate := by
  intro i s x v h
  have hx : x ≠ .atHL := ne_atHL_of_form_ldImm h
  obtain ⟨-, hw⟩ := slotAccessible_of_ne_atHL hx s
  refine ⟨hx, ?_, exec_of_completes h hw⟩
  rw [encode_of_form h]; cases x <;> rfl

/-! ### The move block -/

/-- A move whose write is refused leaves the state after its read. -/
theorem move_of_unwritable {x y : Slot} {s : State} (hr : slotReadable y s = true) (hw : slotWritable x s = false) :
    move x y s = illegal (hlAddr s) .write (afterSlotRead y s) := by
  rw [move, getSlot_eq, if_pos hr, ok_andThen, setSlot_eq, slotWritable_afterSlotRead, if_neg (by simp [hw]),
    hlAddr_afterSlotRead]
  rfl

/-- Settles O24: a move reads its source, then writes its destination. -/
theorem moveBlock : Obligations.MoveBlock := by
  intro i s x y h
  have hexec : exec i s = move x y s := by rw [exec_eq_formMeaning, h]; rfl
  refine ⟨?encoding, fun hr hw => exec_of_completes h ⟨hr, hw⟩, fun hr => ?unreadable, fun hr hw => ?unwritable⟩
  case encoding => rw [encode_of_form h]; cases x <;> cases y <;> rfl
  case unreadable => rw [hexec, move, getSlot_andThen_of_unreadable hr]
  case unwritable => rw [hexec, move_of_unwritable hr hw]

end Sys2Proof.Machine
end

section
/-! PROOF. The increments and decrements of 42_incdec (R160 to R165): of a slot, by what any read-modify-write answers,
and of a register pair. -/

namespace Sys2Proof.Machine

open Sys2Proof.Safety

/-! ### Slots -/

/-- The half-carry of an increment: the low nibble was 15. -/
theorem increment_eq (v : Byte) (fl : Flags) :
    increment v fl = ⟨v + 1, { z := v == 255, n := false, h := v.toNat % 16 == 15, c := fl.c }⟩ := by
  have hz : (v + 1 == 0) = (v == 255) := by
    rw [Bool.eq_iff_iff, beq_iff_eq, beq_iff_eq]
    exact add_eq_zero_iff_eq_neg
  have hh : (v &&& 0x0F#8 == 0x0F#8) = (v.toNat % 16 == 15) := by
    rw [Bool.eq_iff_iff, beq_iff_eq, beq_iff_eq, ← BitVec.toNat_inj, and_low_toNat]
    rfl
  rw [increment, hz, hh]

/-- What a read-modify-write of a slot answers with a valid F, and where its read or its write is refused. -/
theorem exec_modifySlot {i : Instr} {micro : Byte → Flags → MicroResult} {x : Slot} {s : State} {m : MicroResult}
    (h : exec i s = modifySlot micro x s) (hm : micro (slotValue x s) (flagsOfByte s.f) = m) :
    (flagsOk s → slotReadable x s = true → slotWritable x s = true → exec i s = .next
      { afterSlotWrite x m.val (afterSlotRead x s) with f := flagByte m.flags.z m.flags.n m.flags.h m.flags.c }) ∧
    (slotReadable x s = false → exec i s = illegal (hlAddr s) .read s) ∧
    (flagsOk s → slotReadable x s = true → slotWritable x s = false →
      exec i s = illegal (hlAddr s) .write (afterSlotRead x s)) := by
  rw [h]
  refine ⟨fun hf hr hw => ?completes, fun hr => getSlot_andThen_of_unreadable hr _, modifySlot_of_unwritable micro⟩
  case completes =>
    rw [modifySlot_of_accessible micro hf hr hw, afterModify, hm, toByte_eq]
    rfl

/-- Settles O25: an increment's flags in arithmetic, with the C that F held. -/
theorem incrementByte : Obligations.IncrementByte := by
  intro i s x h
  refine ⟨?encoding, ?meaning⟩
  case encoding => rw [encode_of_form h]; cases x <;> rfl
  case meaning =>
    rw [← flagsOfByte_c]
    exact exec_modifySlot (by rw [exec_eq_formMeaning, h]; rfl) (increment_eq _ _)

/-- Settles O26: a decrement's flags in arithmetic, with the C that F held. -/
theorem decrementByte : Obligations.DecrementByte := by
  intro i s x h
  refine ⟨?encoding, ?meaning⟩
  case encoding => rw [encode_of_form h]; cases x <;> rfl
  case meaning =>
    rw [← flagsOfByte_c]
    exact exec_modifySlot (by rw [exec_eq_formMeaning, h]; rfl) (decrement_eq _ _)

/-! ### Pairs -/

/-- Settles O27: the pair is read as one word, and the word's halves are written back. -/
theorem pairIncrementAndDecrement : Obligations.PairIncrementAndDecrement := by
  intro i s p q hpq
  rw [← getPair_eq_wordOf, ← setPair_eq_withPair, ← setPair_eq_withPair]
  refine ⟨fun h => ?increment, fun h => ?decrement⟩
  case increment =>
    rw [encode_of_form h, exec_eq_formMeaning, h]
    obtain ⟨rfl, rfl⟩ | ⟨rfl, rfl⟩ | ⟨rfl, rfl⟩ := hpq <;> exact ⟨rfl, rfl⟩
  case decrement =>
    rw [encode_of_form h, exec_eq_formMeaning, h]
    obtain ⟨rfl, rfl⟩ | ⟨rfl, rfl⟩ | ⟨rfl, rfl⟩ := hpq <;> exact ⟨rfl, rfl⟩

end Sys2Proof.Machine
end

section
/-! PROOF. The stack of 44_stack (R190 to R194): what a push and a pop answer in every case, whatever is done with the word,
and a pop after a push. -/

namespace Sys2Proof.Machine

open Sys2Proof.Safety

/-! ### A push and a pop in every case -/

/-- Pushing a word and then doing `k`: a case per write of the push. -/
theorem pushesThen_push16 (v : Word) (s : State) (k : State → State) :
    PushesThen ((push16 v s).andThen fun _ u => .ok () (k u)).done (hiByte v) (loByte v) s k := by
  refine ⟨fun hw => ?written, fun hlo => ?lowRefused, fun hlo hhi => ?highRefused⟩
  case written => rw [push16_of_writable hw]; rfl
  case lowRefused => rw [push16_eq, if_neg (Bool.eq_false_iff.1 hlo)]; rfl
  case highRefused => rw [push16_eq, if_pos hlo, if_neg (Bool.eq_false_iff.1 hhi)]; rfl

/-- Popping a word and then doing `k` with it: a case per read of the pop. -/
theorem popsThen_pop16 (s : State) (k : Word → State → State) :
    PopsThen ((pop16 s).andThen fun v u => .ok () (k v u)).done s fun hi lo => k (mkWord hi lo) := by
  refine ⟨fun h2 h3 => ?popped, fun h2 => ?lowRefused, fun h2 h3 => ?highRefused⟩
  case popped => rw [pop16_of_readable h2 h3]; rfl
  case lowRefused => rw [pop16_eq, if_neg (Bool.eq_false_iff.1 h2)]; rfl
  case highRefused => rw [pop16_eq, if_pos h2, if_neg (Bool.eq_false_iff.1 h3)]; rfl

@[simp] theorem hiByte_getPair (q : Pair) (s : State) : hiByte (s.getPair q) = pairHi q s := by
  cases q <;> exact hiByte_mkWord ..

@[simp] theorem loByte_getPair (q : Pair) (s : State) : loByte (s.getPair q) = pairLo q s := by
  cases q <;> exact loByte_mkWord ..

theorem pushesThen_pushPair (q : Pair) (s : State) : PushesThen (pushPair q s) (pairHi q s) (pairLo q s) s id := by
  have h := pushesThen_push16 (s.getPair q) s id
  have hdone : ((push16 (s.getPair q) s).andThen fun _ u => .ok () (id u)).done = pushPair q s := by
    rw [pushPair]
    cases push16 (s.getPair q) s <;> rfl
  rwa [hdone, hiByte_getPair, loByte_getPair] at h

/-- A pair's write of a word made from two bytes writes those bytes, AF's low one masked. -/
theorem setPair_mkWord (q : Pair) (hi lo : Byte) (s : State) : s.setPair q (mkWord hi lo) = withPair q hi lo s := by
  rw [setPair_eq_withPair, ← hiByte_eq_highOf, ← loByte_eq_lowOf, hiByte_mkWord, loByte_mkWord]

theorem popsThen_popPair (q : Pair) (s : State) : PopsThen (popPair q s) s (withPair q) := by
  have h := popsThen_pop16 s fun v u => u.setPair q v
  simp only [setPair_mkWord] at h
  exact h

/-! ### Addresses that hold a byte -/

theorem writable_congr {s t : State} (h : t.bootRomEnabled = s.bootRomEnabled) (a : Word) :
    writable t a = writable s a := by
  rw [writable, writable, overlaid, overlaid, h]

/-- A byte written at the address is stored, nothing else happens, and a read answers it. -/
structure HoldsByte (s : State) (a : Word) : Prop where
  writable : writable s a = true
  notStub : stubAddr a = false
  notLatch : a.toNat ≠ 0xFF50

/-- Plain memory holds bytes, and so does the boot area with the overlay off (20_memory R55, R67). -/
theorem holdsByte_of_region {s : State} {a : Word}
    (h : region a = .plain ∨ region a = .bootArea ∧ s.bootRomEnabled = false) : HoldsByte s a := by
  have hspec := region_spec a
  have hrange : (a.toNat < 0xFF00 ∨ 0xFF7F < a.toNat) ∧ overlaid s a = false := by
    obtain hr | ⟨hr, hoff⟩ := h <;> simp only [hr] at hspec
    · exact ⟨by omega, overlaid_of_ge (by omega) s⟩
    · exact ⟨by omega, overlaid_of_off hoff a⟩
  obtain ⟨ha, ho⟩ := hrange
  exact ⟨writable_iff.2 ⟨unmodeledAddr_false (by omega), by omega, ho⟩, stubAddr_false (by omega), by omega⟩

namespace HoldsByte

variable {s : State} {a : Word}

theorem readable (h : HoldsByte s a) : readable a = true :=
  readable_iff.2 (writable_iff.1 h.writable).1

theorem readValue (h : HoldsByte s a) : readValue s a = s.mem.read a.toNat := by
  obtain ⟨-, hly, ho⟩ := writable_iff.1 h.writable
  simp [Safety.readValue, ho, h.notStub, hly]

theorem afterRead (h : HoldsByte s a) : afterRead s a = s := by
  simp [Safety.afterRead, h.notStub]

/-- Whether an address holds a byte depends on the overlay enable alone. -/
theorem congr {t : State} (h : HoldsByte s a) (hb : t.bootRomEnabled = s.bootRomEnabled) : HoldsByte t a :=
  ⟨(writable_congr hb a).trans h.writable, h.notStub, h.notLatch⟩

theorem afterWrite_bootRomEnabled (h : HoldsByte s a) (v : Byte) :
    (afterWrite s a v).bootRomEnabled = s.bootRomEnabled :=
  afterWrite_overlay_kept fun hl => h.notLatch hl.1

end HoldsByte

/-! ### A pop after a push -/

section PopAfterPush

variable {s : State} (hlo : HoldsByte s s.sp) (hhi : HoldsByte s (s.sp + 1)) (hi lo : Byte)

theorem afterPush_sp_add_two : (afterPush hi lo s).sp + 2 = s.sp := BitVec.sub_add_cancel ..

theorem afterPush_sp_add_three : (afterPush hi lo s).sp + 3 = s.sp + 1 := by
  rw [afterPush_sp]
  bv_omega

/-- The bytes of memory after a push. -/
theorem afterPush_read (x : Nat) :
    (afterPush hi lo s).mem.read x =
      if x = (s.sp + 1).toNat then hi else if x = s.sp.toNat then lo else s.mem.read x := by
  rw [← afterWrite_read s]
  exact afterWrite_read ..

/-- The low byte of a push is at SP, which its write of the high byte leaves alone. -/
theorem afterPush_read_sp : (afterPush hi lo s).mem.read s.sp.toNat = lo := by
  have hne : s.sp.toNat ≠ (s.sp + 1).toNat := fun h => by simpa using BitVec.eq_of_toNat_eq h
  rw [afterPush_read, if_neg hne, if_pos rfl]

theorem afterPush_read_sp_add_one : (afterPush hi lo s).mem.read (s.sp + 1).toNat = hi := by
  rw [afterPush_read, if_pos rfl]

include hlo hhi

theorem pushWritable_of_holdsByte : pushWritable lo s = true := by
  have hhi1 := hhi.congr (hlo.afterWrite_bootRomEnabled lo)
  exact Bool.and_eq_true_iff.2 ⟨hlo.writable, hhi1.writable⟩

theorem afterPush_bootRomEnabled : (afterPush hi lo s).bootRomEnabled = s.bootRomEnabled := by
  have hlo1 := hlo.afterWrite_bootRomEnabled lo
  exact ((hhi.congr hlo1).afterWrite_bootRomEnabled hi).trans hlo1

theorem afterPush_holdsByte {a : Word} (ha : HoldsByte s a) : HoldsByte (afterPush hi lo s) a :=
  ha.congr (afterPush_bootRomEnabled hlo hhi hi lo)

theorem afterPush_readable :
    readable ((afterPush hi lo s).sp + 2) = true ∧ readable ((afterPush hi lo s).sp + 3) = true := by
  rw [afterPush_sp_add_two, afterPush_sp_add_three]
  exact ⟨hlo.readable, hhi.readable⟩

theorem popLow_afterPush : popLow (afterPush hi lo s) = lo := by
  rw [popLow, afterPush_sp_add_two, (afterPush_holdsByte hlo hhi hi lo hlo).readValue, afterPush_read_sp]

theorem popHigh_afterPush : popHigh (afterPush hi lo s) = hi := by
  rw [popHigh, afterPush_sp_add_two, afterPush_sp_add_three, (afterPush_holdsByte hlo hhi hi lo hlo).afterRead,
    (afterPush_holdsByte hlo hhi hi lo hhi).readValue, afterPush_read_sp_add_one]

/-- A pop's reads undo a push, but for the two bytes left in memory. -/
theorem afterPop_afterPush : afterPop (afterPush hi lo s) = { s with mem := (afterPush hi lo s).mem } := by
  have hb := afterPush_bootRomEnabled hlo hhi hi lo
  rw [afterPop, afterPush_sp_add_two, afterPush_sp_add_three, (afterPush_holdsByte hlo hhi hi lo hlo).afterRead,
    (afterPush_holdsByte hlo hhi hi lo hhi).afterRead, ← hb]
  rfl

end PopAfterPush

/-- Writing a pair's own bytes to it changes nothing, AF's mask included while F is valid. -/
theorem withPair_pairHi_pairLo {q : Pair} {s : State} (hf : q = .af → flagsOk s) :
    withPair q (pairHi q s) (pairLo q s) s = s := by
  cases q with
  | af =>
    have hmask : BitVec.ofNat 8 (s.f.toNat / 16 * 16) = s.f := by
      rw [Nat.div_mul_cancel (Nat.dvd_of_mod_eq_zero (hf rfl)), BitVec.ofNat_toNat, BitVec.setWidth_eq]
    rw [withPair, pairLo, hmask]
    rfl
  | _ => rfl

end Sys2Proof.Machine

namespace Sys2Proof.Stack

open Sys2Proof.Machine Sys2Proof.Safety

/-- Settles O33, from what a push of any word answers. -/
theorem pushPair : Obligations.PushPair := by
  intro i s q h
  constructor
  · rw [encode_of_form h]; cases q <;> rfl
  · rw [exec_eq_formMeaning, h]
    exact pushesThen_pushPair q s

/-- Settles O34, from what a pop of any word answers. -/
theorem popPair : Obligations.PopPair := by
  intro i s q h
  constructor
  · rw [encode_of_form h]; cases q <;> rfl
  · rw [exec_eq_formMeaning, h]
    exact popsThen_popPair q s

/-- Settles O35: the pop reads the two bytes the push wrote. -/
theorem pushThenPopRestores : Obligations.PushThenPopRestores := by
  intro i j s q hi hj hf hspLow hspHigh
  have hlo : HoldsByte s s.sp := holdsByte_of_region hspLow
  have hhi : HoldsByte s (s.sp + 1) := holdsByte_of_region hspHigh
  obtain ⟨-, hpush, -⟩ := pushPair i s q hi
  obtain ⟨-, hpop, -⟩ := popPair j (afterPush (pairHi q s) (pairLo q s) s) q hj
  obtain ⟨h2, h3⟩ := afterPush_readable hlo hhi (pairHi q s) (pairLo q s)
  refine ⟨_, hpush (pushWritable_of_holdsByte hlo hhi _), ?_⟩
  rw [id, hpop h2 h3, popHigh_afterPush hlo hhi, popLow_afterPush hlo hhi, afterPop_afterPush hlo hhi]
  exact congrArg Host.Outcome.next (withPair_pairHi_pairLo hf)

end Sys2Proof.Stack
end

section
/-! PROOF. Relative jumps, call and return (45_jumps_calls R200 to R203): the target in integers, the condition in F's
flags, and what a call and a return answer by what a push and a pop answer. -/

namespace Sys2Proof.Machine

open Sys2Proof.Safety

/-! ### Relative jumps -/

/-- The target of a relative jump in integers: the displacement is signed, and the sum wraps. -/
theorem jumpTarget_eq_ofInt (e : Byte) (s : State) : jumpTarget e s = BitVec.ofInt 16 (s.pc.toNat + e.toInt) := by
  rw [jumpTarget, BitVec.ofInt_add, BitVec.ofInt_natCast, BitVec.ofNat_toNat, BitVec.setWidth_eq]
  rfl

/-- Settles O36: the target is that of the form. -/
theorem jumpRelative : Obligations.JumpRelative := by
  intro i s e h
  constructor
  · rw [encode_of_form h]; rfl
  · rw [exec_of_completes h trivial, ← jumpTarget_eq_ofInt]
    rfl

/-- A condition holds, or does not, by Z or C of F. -/
theorem condHolds_flagsOfByte {cc : Cond} {s : State} {b : Bool}
    (h : cc = .nz ∧ zero s = !b ∨ cc = .z ∧ zero s = b ∨ cc = .nc ∧ carry s = !b ∨ cc = .c ∧ carry s = b) :
    condHolds cc (flagsOfByte s.f) = b := by
  obtain ⟨rfl, hf⟩ | ⟨rfl, hf⟩ | ⟨rfl, hf⟩ | ⟨rfl, hf⟩ := h <;>
    simp only [condHolds, flagsOfByte_z, flagsOfByte_c, hf, Bool.not_not]

/-- Settles O37: a valid F is read, and the condition on it decides between the target and the next instruction. -/
theorem jumpOnCondition : Obligations.JumpOnCondition := by
  intro i s cc e h
  refine ⟨?encoding, fun hf => ⟨fun hmet => ?met, fun hunmet => ?unmet⟩⟩
  case encoding => rw [encode_of_form h]; cases cc <;> rfl
  case met =>
    rw [exec_of_completes h hf, afterForm, if_pos (condHolds_flagsOfByte hmet), ← jumpTarget_eq_ofInt]
    rfl
  case unmet =>
    rw [exec_of_completes h hf, afterForm, if_neg (Bool.eq_false_iff.1 (condHolds_flagsOfByte hunmet))]

/-! ### Call and return -/

theorem wordOf_highOf_lowOf (v : Word) : wordOf (highOf v) (lowOf v) = v := by
  rw [wordOf, ← mkWord_eq_ofNat, ← hiByte_eq_highOf, ← loByte_eq_lowOf, mkWord_hi_lo]

/-- Settles O38: a call pushes PC, which is the address after it, and then sets it. -/
theorem callPushesReturnAddress : Obligations.CallPushesReturnAddress := by
  intro i s t h
  rw [encode_of_form h, exec_eq_formMeaning, h, ← hiByte_eq_highOf, ← loByte_eq_lowOf, ← hiByte_eq_highOf,
    ← loByte_eq_lowOf]
  exact ⟨rfl, pushesThen_push16 s.pc s fun u => u.setPC t⟩

/-- Settles O39: a return sets PC to the word it pops. -/
theorem returnPopsPC : Obligations.ReturnPopsPC := by
  intro i s h
  have hpop := popsThen_pop16 s fun v u => u.setPC v
  simp only [mkWord_eq_ofNat] at hpop
  rw [encode_of_form h, exec_eq_formMeaning, h]
  exact ⟨rfl, hpop⟩

/-- PC is no part of what a push does. -/
theorem afterPush_setPC (hi lo : Byte) (s : State) (v : Word) :
    afterPush hi lo (s.setPC v) = (afterPush hi lo s).setPC v := rfl

/-- Settles O40: the call is a push followed by a jump, which is the same push after the jump, and a return pops what
was pushed. -/
theorem callThenReturnComesBack : Obligations.CallThenReturnComesBack := by
  intro i j s a hi hj hspLow hspHigh
  have hlo : HoldsByte s s.sp := holdsByte_of_region (.inl hspLow)
  have hhi : HoldsByte s (s.sp + 1) := holdsByte_of_region (.inl hspHigh)
  have hloAt : HoldsByte (s.setPC a) s.sp := hlo.congr rfl
  have hhiAt : HoldsByte (s.setPC a) (s.sp + 1) := hhi.congr rfl
  obtain ⟨-, hcall, -⟩ := callPushesReturnAddress i s a hi
  obtain ⟨-, hret, -⟩ := returnPopsPC j (afterPush (highOf s.pc) (lowOf s.pc) (s.setPC a)) hj
  obtain ⟨h2, h3⟩ := afterPush_readable hloAt hhiAt (highOf s.pc) (lowOf s.pc)
  refine ⟨_, hcall (pushWritable_of_holdsByte hlo hhi _), rfl, ?_⟩
  calc exec j ((afterPush (highOf s.pc) (lowOf s.pc) s).setPC a)
    _ = exec j (afterPush (highOf s.pc) (lowOf s.pc) (s.setPC a)) := by rw [afterPush_setPC]
    _ = .next { s with mem := (afterPush (highOf s.pc) (lowOf s.pc) s).mem } := by
      rw [hret h2 h3, popHigh_afterPush hloAt hhiAt, popLow_afterPush hloAt hhiAt, afterPop_afterPush hloAt hhiAt]
      simp only [wordOf_highOf_lowOf]
      rfl

end Sys2Proof.Machine
end

section
/-! PROOF. The accumulator loads and stores of 46_highram_absolute (R210 to R215): the address of each form, and what a
store of A and a load of A answer in every case. -/

namespace Sys2Proof.Machine

open Sys2Proof.Safety

/-- An address of the high page is 0xFF00 plus the offset; the sum does not wrap. -/
theorem highAddr_eq_ofNat (o : Byte) : highAddr o = BitVec.ofNat 16 (0xFF00 + o.toNat) := by
  rw [highAddr, BitVec.ofNat_add, BitVec.ofNat_toNat]

theorem storeA_of_unwritable {a : Word} {s : State} (h : writable s a = false) : storeA a s = illegal a .write s :=
  memWrite_illegal s.a h

theorem loadA_of_unreadable {a : Word} {s : State} (h : readable a = false) : loadA a s = illegal a .read s := by
  rw [loadA, memRead_eq, if_neg (Bool.eq_false_iff.1 h)]
  rfl

/-- Settles O41: each of the three forms is a store of A at its address. -/
theorem storeAccumulator : Obligations.StoreAccumulator := by
  intro i s a h
  have hexec : exec i s = storeA a s := by
    rw [exec_eq_formMeaning]
    obtain ⟨o, hi, rfl, -⟩ | ⟨hi, rfl, -⟩ | ⟨hi, -⟩ := h
    · rw [hi, ← highAddr_eq_ofNat]; rfl
    · rw [hi, ← highAddr_eq_ofNat]; rfl
    · rw [hi]; rfl
  rw [hexec]
  exact ⟨storeA_of_writable, storeA_of_unwritable⟩

/-- Settles O42: each of the three forms is a load of A from its address. -/
theorem loadAccumulator : Obligations.LoadAccumulator := by
  intro i s a h
  have hexec : exec i s = loadA a s := by
    rw [exec_eq_formMeaning]
    obtain ⟨o, hi, rfl, -⟩ | ⟨hi, rfl, -⟩ | ⟨hi, -⟩ := h
    · rw [hi, ← highAddr_eq_ofNat]; rfl
    · rw [hi, ← highAddr_eq_ofNat]; rfl
    · rw [hi]; rfl
  rw [hexec]
  exact ⟨loadA_of_readable, loadA_of_unreadable⟩

end Sys2Proof.Machine
end

section
/-! PROOF. The fault record (60_exceptions R241, R245): whatever an operation of a step raises, its fault carries a state
that records the condition reported; so a faulted state is terminal and no instruction answers StartupIO. -/

namespace Sys2Proof.Machine

open Sys2Proof.Safety

/-! ### Recorded faults -/

/-- The fault carries a state, and that state's record holds the condition the fault reports. -/
def Recorded (e : Fault) : Prop := ∃ fin, finalState e = some fin ∧ fin.fault = some (conditionOf e)

/-- StartupIO is raised before any state exists. -/
theorem not_recorded_startupIO : ¬Recorded .startupIO := by
  rintro ⟨fin, hfin, -⟩
  cases hfin

theorem raise_recorded {α : Type} {c : FatalCondition} (hc : c ≠ .startupIO) (s : State) :
    FaultsMeet Recorded (raise c s : Res α) := by
  intro e h
  cases c with
  | startupIO => exact absurd rfl hc
  | _ => cases h; exact ⟨_, rfl, rfl⟩

/-- A fault is its condition together with the state it carries. -/
theorem faultOf_conditionOf {e : Fault} {fin : State} (h : finalState e = some fin) :
    faultOf (conditionOf e) fin = e := by
  cases e with
  | startupIO => cases h
  | _ => cases h; rfl

/-! ### Shared operations -/

theorem memRead_recorded (a : Word) (s : State) : FaultsMeet Recorded (memRead a s) := by
  rw [memRead_eq]
  split
  · exact faultsMeet_ok _ _
  · exact raise_recorded (by nofun) s

theorem memWrite_recorded (a : Word) (v : Byte) (s : State) : FaultsMeet Recorded (memWrite a v s) := by
  rw [memWrite_eq]
  split
  · exact faultsMeet_ok _ _
  · exact raise_recorded (by nofun) s

theorem getSlot_recorded (x : Slot) (s : State) : FaultsMeet Recorded (getSlot x s) := by
  cases x with
  | atHL => exact memRead_recorded _ s
  | _ => exact faultsMeet_ok _ _

theorem setSlot_recorded (x : Slot) (v : Byte) (s : State) : FaultsMeet Recorded (setSlot x v s) := by
  cases x with
  | atHL => exact memWrite_recorded _ v s
  | _ => exact faultsMeet_ok _ _

theorem getSrc_recorded (src : AluSrc) (s : State) : FaultsMeet Recorded (getSrc src s) := by
  cases src with
  | slot x => exact getSlot_recorded x s
  | imm v => exact faultsMeet_ok v s

theorem getFlags_recorded (s : State) : FaultsMeet Recorded (getFlags s) := by
  by_cases hf : flagsOk s
  · exact getFlags_faultsMeet hf
  · rw [getFlags_violation hf]
    exact raise_recorded (by nofun) s

theorem setFlags_recorded (fl : Flags) (s : State) : FaultsMeet Recorded (setFlags fl s) := by
  by_cases hf : flagsOk s
  · exact setFlags_faultsMeet fl hf
  · rw [setFlags_violation fl hf]
    exact raise_recorded (by nofun) s

theorem push16_recorded (v : Word) (s : State) : FaultsMeet Recorded (push16 v s) :=
  (memWrite_recorded _ _ s).andThen fun _ s1 _ => (memWrite_recorded _ _ s1).andThen fun _ _ _ => faultsMeet_ok _ _

theorem pop16_recorded (s : State) : FaultsMeet Recorded (pop16 s) :=
  (memRead_recorded _ _).andThen fun _ s1 _ => (memRead_recorded _ s1).andThen fun _ _ _ => faultsMeet_ok _ _

/-! ### Instructions -/

/-- If the step ends in a fault, the fault is recorded. -/
def RecordsFault (answer : StepResult) : Prop := ∀ e, answer = .fault e → Recorded e

theorem recordsFault_next (s : State) : RecordsFault (.next s) := nofun

theorem FaultsMeet.recordsFault {α : Type} {r : Res α} (h : FaultsMeet Recorded r) : RecordsFault r.done :=
  fun e he => h e (done_eq_fault.1 he)

theorem move_recordsFault (x y : Slot) (s : State) : RecordsFault (move x y s) :=
  ((getSlot_recorded y s).andThen fun v s1 _ => setSlot_recorded x v s1).recordsFault

theorem modifySlot_recordsFault (m : Byte → Flags → MicroResult) (x : Slot) (s : State) :
    RecordsFault (modifySlot m x s) :=
  ((getSlot_recorded x s).andThen fun v s1 _ => (getFlags_recorded s1).andThen fun fl s2 _ =>
    (setSlot_recorded x (m v fl).val s2).andThen fun _ s3 _ => setFlags_recorded (m v fl).flags s3).recordsFault

theorem accumulate_recordsFault (op : AluOp) (src : AluSrc) (s : State) : RecordsFault (accumulate op src s) :=
  ((getSrc_recorded src s).andThen fun _ _ _ => setFlags_recorded _ _).recordsFault

theorem testBit7_recordsFault (x : Slot) (s : State) : RecordsFault (testBit7 x s) :=
  ((getSlot_recorded x s).andThen fun _ s1 _ =>
    (getFlags_recorded s1).andThen fun _ s2 _ => setFlags_recorded _ s2).recordsFault

theorem rotateA_recordsFault (s : State) : RecordsFault (rotateA s) :=
  ((getFlags_recorded s).andThen fun _ _ _ => setFlags_recorded _ _).recordsFault

theorem jumpCond_recordsFault (cc : Cond) (b : Byte) (s : State) : RecordsFault (jumpCond cc b s) :=
  ((getFlags_recorded s).andThen fun _ _ _ => faultsMeet_ok _ _).recordsFault

theorem popPair_recordsFault (q : Pair) (s : State) : RecordsFault (popPair q s) :=
  ((pop16_recorded s).andThen fun _ _ _ => faultsMeet_ok _ _).recordsFault

theorem callAbs_recordsFault (t : Word) (s : State) : RecordsFault (callAbs t s) :=
  ((push16_recorded s.pc s).andThen fun _ _ _ => faultsMeet_ok _ _).recordsFault

theorem returnPop_recordsFault (s : State) : RecordsFault (returnPop s) :=
  ((pop16_recorded s).andThen fun _ _ _ => faultsMeet_ok _ _).recordsFault

theorem storeA_recordsFault (a : Word) (s : State) : RecordsFault (storeA a s) :=
  (memWrite_recorded a _ s).recordsFault

theorem loadA_recordsFault (a : Word) (s : State) : RecordsFault (loadA a s) :=
  ((memRead_recorded a s).andThen fun _ _ _ => faultsMeet_ok _ _).recordsFault

theorem formMeaning_recordsFault (fm : Form) (s : State) : RecordsFault (formMeaning fm s) := by
  cases fm with
  | ldPair p v => cases p <;> exact recordsFault_next _
  | incPair p | decPair p => cases p <;> exact recordsFault_next _
  | jr b => exact recordsFault_next _
  | ldImm x v => exact (setSlot_recorded x v s).recordsFault
  | ld x y => exact move_recordsFault x y s
  | inc x | dec x | rl x => exact modifySlot_recordsFault _ x s
  | alu op src => exact accumulate_recordsFault op src s
  | push q => exact (push16_recorded _ s).recordsFault
  | pop q => exact popPair_recordsFault q s
  | jrCond cc b => exact jumpCond_recordsFault cc b s
  | call t => exact callAbs_recordsFault t s
  | ret => exact returnPop_recordsFault s
  | storeHigh o | storeHighC | storeAbs t => exact storeA_recordsFault _ s
  | loadHigh o | loadHighC | loadAbs t => exact loadA_recordsFault _ s
  | rla => exact rotateA_recordsFault s
  | bit7 x => exact testBit7_recordsFault x s

theorem exec_recordsFault (i : Instr) (s : State) : RecordsFault (exec i s) := by
  rw [exec_eq_formMeaning]
  exact formMeaning_recordsFault i.form s

/-! ### The step -/

theorem fetch8_recorded (s : State) : FaultsMeet Recorded (fetch8 s) :=
  (memRead_recorded s.pc s).andThen fun _ _ _ => faultsMeet_ok _ _

theorem fetch16_recorded (s : State) : FaultsMeet Recorded (fetch16 s) :=
  (fetch8_recorded s).andThen fun _ s1 _ => (fetch8_recorded s1).andThen fun _ _ _ => faultsMeet_ok _ _

theorem fetchInstr_recorded (s : State) : FaultsMeet Recorded (fetchInstr s) := by
  refine (fetch8_recorded s).andThen fun op s1 _ => ?_
  split
  · next i _ => exact faultsMeet_ok i s1
  · next mk _ => exact (fetch8_recorded s1).andThen fun v s2 _ => faultsMeet_ok (mk v) s2
  · next mk _ => exact (fetch16_recorded s1).andThen fun v s2 _ => faultsMeet_ok (mk v) s2
  · refine (fetch8_recorded s1).andThen fun op2 s2 _ => ?_
    split
    · next i _ => exact faultsMeet_ok i s2
    · exact raise_recorded (by nofun) s2
  · exact raise_recorded (by nofun) s1

/-- A running state that faults does so in its fetch or in its instruction, and both record what they raise. -/
theorem step_recorded {s : State} {r : Fault} (hs : s.fault = none) (h : step s = .fault r) : Recorded r := by
  obtain hfetch | ⟨i, s1, -, hexec⟩ := step_fault hs h
  · exact fetchInstr_recorded s r hfetch
  · exact exec_recordsFault i s1 r hexec

theorem step_of_fault {s : State} {c : FatalCondition} (hs : s.fault = some c) : step s = .fault (faultOf c s) := by
  simp only [step, hs]

/-- Settles O11: a fault is recorded in the state it carries, and from that state the step rebuilds it. -/
theorem faultIsRecordedAndTerminal : Obligations.FaultIsRecordedAndTerminal := by
  refine ⟨fun s c => step_of_fault, fun s r hs h => ?_⟩
  obtain ⟨fin, hfin, hrec⟩ := step_recorded hs h
  have hagain : step fin = .fault r := by rw [step_of_fault hrec, faultOf_conditionOf hfin]
  exact ⟨fin, hfin, hrec, hagain⟩

/-! ### The session's start -/

theorem startup_of_length_ne {boot : BootImage} {cart : List Byte} (h : cart.length ≠ Config.cartSize) :
    startup boot (some cart) = .fault .startupIO :=
  if_neg h

theorem startup_of_length_eq {boot : BootImage} {cart : List Byte} (h : cart.length = Config.cartSize) :
    startup boot (some cart) = .next (resetWith boot cart) :=
  if_pos h

/-- Settles O20: the start tests the length only, and a fault of an instruction is recorded, as StartupIO never is. -/
theorem shortCartridgeIsStartupIO : Obligations.ShortCartridgeIsStartupIO :=
  ⟨fun _ => ⟨rfl, fun _ => startup_of_length_ne, fun _ => startup_of_length_eq⟩,
    fun i s h => not_recorded_startupIO (exec_recordsFault i s _ h)⟩

end Sys2Proof.Machine
end

section
/-! PROOF. The flag string of the register dump (60_exceptions R263): a flag's bit of F in arithmetic. -/

namespace Sys2Proof.Machine

/-- A bit of a byte is set when the byte's part up to that bit reaches the bit's weight. -/
theorem getLsbD_eq_decide_le_mod (v : Byte) (k : Nat) : v.getLsbD k = decide (2 ^ k ≤ v.toNat % 2 ^ (k + 1)) := by
  have hlow : v.toNat % 2 ^ k < 2 ^ k := Nat.mod_lt _ (Nat.two_pow_pos k)
  rw [BitVec.getLsbD, Nat.testBit_eq_decide_div_mod_eq, decide_eq_decide, Nat.mod_pow_succ]
  obtain hbit | hbit := Nat.mod_two_eq_zero_or_one (v.toNat / 2 ^ k)
  · simp [hbit, hlow]
  · simp [hbit]

/-- Settles O60: each flag is its bit of F in arithmetic. -/
theorem dumpFlagString : Obligations.DumpFlagString := by
  intro s
  have hbyte : s.f.toNat % 256 = s.f.toNat := Nat.mod_eq_of_lt s.f.isLt
  simp only [flagString, flagsOfByte, getLsbD_eq_decide_le_mod, decide_eq_true_eq, Nat.reduceAdd, Nat.reducePow, hbyte]

end Sys2Proof.Machine
end

section
/-! PROOF. The first step of a session (70_reset_and_hazards R272, 20_memory R71): the boot image is the code at address 0,
and it begins with an LD SP,d16. -/

namespace Sys2Proof.Machine

open Sys2Proof.Safety

/-- The overlay's byte at an address below 0x100 is code: no read of it faults or draws (20_memory R60, R67). -/
theorem overlay_readsAsCode {s : State} {a : Word} (ha : a.toNat < 0x100) (hs : s.bootRomEnabled = true) :
    readable a = true ∧ stubAddr a = false ∧ readValue s a = bootByte s a := by
  have hoverlaid : overlaid s a = true := by rw [overlaid, hs, decide_eq_true ha, Bool.and_true]
  refine ⟨?_, stubAddr_false (by omega), if_pos hoverlaid⟩
  rw [readable, unmodeledAddr_false (by omega), Bool.not_false]

/-- At a session's start the first bytes of the boot image stand at address 0. -/
theorem codeAt_resetWith {boot : BootImage} {code : List Byte} (cart : List Byte) (h : code <+: boot.bytes) :
    CodeAt (resetWith boot cart) 0 code := by
  intro k hk
  have hsize : k < 0x100 := hk.trans_le (h.length_le.trans_eq boot.size)
  have haddr : ((0 : Word) + BitVec.ofNat 16 k).toNat = k := by
    rw [zero_add, BitVec.toNat_ofNat, Nat.mod_eq_of_lt (by omega)]
  obtain ⟨hread, hstub, hvalue⟩ := overlay_readsAsCode (s := resetWith boot cart) (haddr.trans_lt hsize) rfl
  have hbyte : boot.bytes[k]? = some code[k] := List.prefix_iff_getElem?.1 h k hk
  rw [hvalue, bootByte_resetWith cart (by rwa [haddr]), List.getElem?_eq_getElem hk]
  exact ⟨hread, hstub, rfl⟩

/-- A boot image begins with 0x31, whatever the two bytes after it are. -/
theorem BootImage.opcode_prefix {boot : BootImage} {x y : Byte} (hx : boot.bytes[1]? = some x)
    (hy : boot.bytes[2]? = some y) : [0x31, x, y] <+: boot.bytes :=
  List.prefix_iff_getElem?.2 fun
    | 0, _ => boot.first
    | 1, _ => hx
    | 2, _ => hy

/-- LD SP,d16 holds its immediate low byte first (30_encoding R93). -/
theorem encode_ld_SP_d16 (hi lo : Byte) : encode (.ld_SP_d16 (wordOf hi lo)) = [0x31, lo, hi] := by
  rw [wordOf, ← mkWord_eq_ofNat]
  calc encode (.ld_SP_d16 (mkWord hi lo))
    _ = [0x31, loByte (mkWord hi lo), hiByte (mkWord hi lo)] := rfl
    _ = [0x31, lo, hi] := by rw [loByte_mkWord, hiByte_mkWord]

/-- Settles O21: the code at PC is the encoding of an LD SP,d16, and the step runs it. -/
theorem firstStepLoadsSP : Obligations.FirstStepLoadsSP := by
  intro boot cart lo hi hlo hhi
  have hcode : CodeAt (resetWith boot cart) 0 (encode (.ld_SP_d16 (wordOf hi lo))) :=
    encode_ld_SP_d16 hi lo ▸ codeAt_resetWith cart (boot.opcode_prefix hlo hhi)
  rw [stepRunsTheCodeAtPC (resetWith boot cart) _ rfl hcode, encode_ld_SP_d16]
  exact exec_of_completes rfl trivial

end Sys2Proof.Machine
end
